-- ==== Sys2Proof/Word.lean ====
section
/-! DEFINITION. The words of the block: bytes and 32-bit command words (00_scope.md R7, R10). -/

namespace Sys2Proof

/-- One payload byte; bit 7 is its most significant bit (R63). -/
abbrev Byte := BitVec 8

/-- One command word of the command port (R81). -/
abbrev Word := BitVec 32

/-- A rolling counter value, 0..15; its addition wraps modulo 16 (R150). -/
abbrev Counter := BitVec 4

/-- A slot number of the message-ID table, 0..7 (R7, R60). -/
abbrev Slot := Fin 8

/-- A byte index of a slot buffer, 0..7 (R7, R60). -/
abbrev ByteIndex := Fin 8

end Sys2Proof
end

