-- ==== Sys2Proof/Syntax.lean ====
section
/-! DEFINITION. The command set: one constructor for each of the 35 rows of spec/opcode_table.json (30_encoding.md
R96), with the operand fields of its format (R84, R85). -/

namespace Sys2Proof

/-- The operand `src`: 0 is `TXBUF`, 1 is `RXBUF` (R85). -/
inductive BufSrc where
  | tx
  | rx
  deriving DecidableEq, Repr

/-- The 35 commands of R96. A field of the encoding that can hold a value no command has (`k`, `field`) keeps its
encoded width here; `Instr.wellFormed` says which values are legal (R89, R90). -/
inductive Instr where
  /-- NOP (R270) -/
  | nop
  /-- TICK (R271) -/
  | tick
  /-- LOCK (R272) -/
  | lock
  /-- SETVAR imm8 (R273) -/
  | setvar (imm8 : BitVec 8)
  /-- RDVAR (R274) -/
  | rdvar
  /-- RDSTAT (R275) -/
  | rdstat
  /-- CLRSTAT mask16 (R276) -/
  | clrstat (mask16 : BitVec 16)
  /-- RDERR (R277) -/
  | rderr
  /-- RDCYCL (R278) -/
  | rdcycl
  /-- RDCYCH (R279) -/
  | rdcych
  /-- SETIRQ mask16 (R280) -/
  | setirq (mask16 : BitVec 16)
  /-- RDDROP (R281) -/
  | rddrop
  /-- CRC.INIT (R113) -/
  | crcInit
  /-- CRC.FEED imm8 (R114) -/
  | crcFeed (imm8 : BitVec 8)
  /-- CRC.RD (R115) -/
  | crcRd
  /-- CRC.BUF src sN, k (R116) -/
  | crcBuf (slot : Slot) (src : BufSrc) (k : BitVec 4)
  /-- SUM.INIT id (R133) -/
  | sumInit (id : BitVec 11)
  /-- SUM.FEED imm8 (R134) -/
  | sumFeed (imm8 : BitVec 8)
  /-- SUM.RD (R135) -/
  | sumRd
  /-- SUM.BUF src sN, k (R136) -/
  | sumBuf (slot : Slot) (src : BufSrc) (k : BitVec 4)
  /-- CNT.LD sN, v (R152) -/
  | cntLd (slot : Slot) (v : BitVec 4)
  /-- CNT.INC sN (R153) -/
  | cntInc (slot : Slot)
  /-- CNT.RD sN (R154) -/
  | cntRd (slot : Slot)
  /-- CNT.OBS sN (R155) -/
  | cntObs (slot : Slot)
  /-- CNT.POP sN (R158) -/
  | cntPop (slot : Slot)
  /-- CNT.FLEN sN (R157) -/
  | cntFlen (slot : Slot)
  /-- CNT.STEER (R156) -/
  | cntSteer
  /-- CNT.RXC sN (R159) -/
  | cntRxc (slot : Slot)
  /-- BUF.WR sN[idx], byte (R230) -/
  | bufWr (slot : Slot) (idx : ByteIndex) (byte : BitVec 8)
  /-- BUF.RD src sN[idx] (R231) -/
  | bufRd (slot : Slot) (src : BufSrc) (idx : ByteIndex)
  /-- BUF.SNAP sN (R232) -/
  | bufSnap (slot : Slot)
  /-- BUF.CLR sN (R233) -/
  | bufClr (slot : Slot)
  /-- FRM.TX sN (R186) -/
  | frmTx (slot : Slot)
  /-- CFG.WR sN.FIELD, value (R234) -/
  | cfgWr (slot : Slot) (field : BitVec 4) (value : BitVec 12)
  /-- CFG.RD sN.FIELD (R236) -/
  | cfgRd (slot : Slot) (field : BitVec 4)
  deriving DecidableEq, Repr

end Sys2Proof
end

