-- ==== Sys2Proof/WellFormed.lean ====
section
/-! DEFINITION. Which terms of `Instr` are commands: the operand values R89 and R90 make illegal. -/

namespace Sys2Proof

/-- A buffer holds 8 bytes: the byte count `k` of format SK is 0..8 (R89). -/
def legalCount (k : BitVec 4) : Bool := k ≤ 8#4

/-- A table field number of formats CW and CR is 0..9 (R90). -/
def legalField (field : BitVec 4) : Bool := field ≤ 9#4

/-- The operands of a command are legal: every other operand value its encoding can express is (R60, R85). -/
def Instr.wellFormed : Instr → Bool
  | .nop => true
  | .tick => true
  | .lock => true
  | .setvar _ => true
  | .rdvar => true
  | .rdstat => true
  | .clrstat _ => true
  | .rderr => true
  | .rdcycl => true
  | .rdcych => true
  | .setirq _ => true
  | .rddrop => true
  | .crcInit => true
  | .crcFeed _ => true
  | .crcRd => true
  | .crcBuf _ _ k => legalCount k
  | .sumInit _ => true
  | .sumFeed _ => true
  | .sumRd => true
  | .sumBuf _ _ k => legalCount k
  | .cntLd _ _ => true
  | .cntInc _ => true
  | .cntRd _ => true
  | .cntObs _ => true
  | .cntPop _ => true
  | .cntFlen _ => true
  | .cntSteer => true
  | .cntRxc _ => true
  | .bufWr _ _ _ => true
  | .bufRd _ _ _ => true
  | .bufSnap _ => true
  | .bufClr _ => true
  | .frmTx _ => true
  | .cfgWr _ field _ => legalField field
  | .cfgRd _ field => legalField field

end Sys2Proof
end

