-- ==== Sys2Proof/Decode.lean ====
section
/-! DEFINITION. Decoding and encoding of command words (30_encoding.md R81–R92, R96). The decoder is a total function
of the word alone (R92); every word it rejects is one the block answers with `E_ILLEGAL`. -/

namespace Sys2Proof

/-- Why a word is none of the 35 commands. Each reason is `E_ILLEGAL` to the block. -/
inductive DecodeError where
  /-- FAM is 7..15 (R87). -/
  | reservedFamily
  /-- FN is not listed in the family (R88). -/
  | reservedFunction
  /-- A bit the format lists as zero is 1 (R86). -/
  | reservedBits
  /-- `k` is 9..15 (R89). -/
  | illegalCount
  /-- `field` is 10..15 (R90). -/
  | illegalField
  deriving DecidableEq, Repr

/-- The eleven operand formats of R84. -/
inductive Format where
  | n | b | i | m | s | sv | sk | sib | si | cw | cr
  deriving DecidableEq, Repr

/-- The ranges of bits a format lists as zero (R84), each as its lowest bit and its width. The model's choice for format
SI (DEDUCED, log entry 15): R84's row SI lists w[11:0] as zero over its own field idx = w[10:8], and no ruling settles it;
the reserved bits here are w[11] and w[7:0], as the mask 0xFFF8E8FF of R96 and R231 has them. -/
def Format.zeroBits : Format → List (Nat × Nat)
  | .n => [(0, 24)]
  | .b => [(8, 16)]
  | .i => [(11, 13)]
  | .m => [(16, 8)]
  | .s => [(19, 5), (0, 16)]
  | .sv => [(19, 5), (4, 12)]
  | .sk => [(19, 5), (13, 3), (4, 8)]
  | .sib => [(19, 5), (11, 5)]
  | .si => [(19, 5), (13, 3), (11, 1), (0, 8)]
  | .cw => [(19, 5)]
  | .cr => [(19, 5), (0, 12)]

/-- The only operand a format with an illegal value can hold (R89, R90). -/
def Format.operandError : Format → DecodeError
  | .sk => .illegalCount
  | _ => .illegalField

/-- Every reserved bit of the format is 0 in the word (R86). -/
def Format.reservedClear (f : Format) (w : Word) : Bool :=
  f.zeroBits.all fun r => w.extractLsb' r.1 r.2 == 0

/-! The operand fields of R84. -/

/-- FAM = w[31:28] (R81). -/
def famOf (w : Word) : BitVec 4 := w.extractLsb' 28 4

/-- FN = w[27:24] (R81). -/
def fnOf (w : Word) : BitVec 4 := w.extractLsb' 24 4

/-- imm8 = w[7:0]. -/
def imm8Of (w : Word) : BitVec 8 := w.extractLsb' 0 8

/-- id = w[10:0]. -/
def idOf (w : Word) : BitVec 11 := w.extractLsb' 0 11

/-- mask16 = w[15:0]. -/
def mask16Of (w : Word) : BitVec 16 := w.extractLsb' 0 16

/-- slot = w[18:16]. -/
def slotOf (w : Word) : Slot := (w.extractLsb' 16 3).toFin

/-- v = w[3:0]. -/
def vOf (w : Word) : BitVec 4 := w.extractLsb' 0 4

/-- src = w[12]. -/
def srcOf (w : Word) : BufSrc := if w.extractLsb' 12 1 = 1#1 then .rx else .tx

/-- k = w[3:0]. -/
def kOf (w : Word) : BitVec 4 := w.extractLsb' 0 4

/-- idx = w[10:8]. -/
def idxOf (w : Word) : ByteIndex := (w.extractLsb' 8 3).toFin

/-- byte = w[7:0]. -/
def byteOf (w : Word) : BitVec 8 := w.extractLsb' 0 8

/-- field = w[15:12]. -/
def fieldOf (w : Word) : BitVec 4 := w.extractLsb' 12 4

/-- value = w[11:0]. -/
def valueOf (w : Word) : BitVec 12 := w.extractLsb' 0 12

/-- One row of the opcode map R96, with the command its words stand for. -/
structure OpRow where
  mnemonic : String
  fam : BitVec 4
  fn : BitVec 4
  format : Format
  matchWord : Word
  maskWord : Word
  make : Word → Instr

/-- The rows of family 0, SYS, of R96. -/
def sysRows : List OpRow := [
  ⟨"NOP", 0, 0, .n, 0x00000000, 0xFFFFFFFF, fun _ => .nop⟩,
  ⟨"TICK", 0, 1, .n, 0x01000000, 0xFFFFFFFF, fun _ => .tick⟩,
  ⟨"LOCK", 0, 2, .n, 0x02000000, 0xFFFFFFFF, fun _ => .lock⟩,
  ⟨"SETVAR", 0, 3, .b, 0x03000000, 0xFFFFFF00, fun w => .setvar (imm8Of w)⟩,
  ⟨"RDVAR", 0, 4, .n, 0x04000000, 0xFFFFFFFF, fun _ => .rdvar⟩,
  ⟨"RDSTAT", 0, 5, .n, 0x05000000, 0xFFFFFFFF, fun _ => .rdstat⟩,
  ⟨"CLRSTAT", 0, 6, .m, 0x06000000, 0xFFFF0000, fun w => .clrstat (mask16Of w)⟩,
  ⟨"RDERR", 0, 7, .n, 0x07000000, 0xFFFFFFFF, fun _ => .rderr⟩,
  ⟨"RDCYCL", 0, 8, .n, 0x08000000, 0xFFFFFFFF, fun _ => .rdcycl⟩,
  ⟨"RDCYCH", 0, 9, .n, 0x09000000, 0xFFFFFFFF, fun _ => .rdcych⟩,
  ⟨"SETIRQ", 0, 10, .m, 0x0A000000, 0xFFFF0000, fun w => .setirq (mask16Of w)⟩,
  ⟨"RDDROP", 0, 11, .n, 0x0B000000, 0xFFFFFFFF, fun _ => .rddrop⟩]

/-- The rows of family 1, CRC, of R96. -/
def crcRows : List OpRow := [
  ⟨"CRC.INIT", 1, 0, .n, 0x10000000, 0xFFFFFFFF, fun _ => .crcInit⟩,
  ⟨"CRC.FEED", 1, 1, .b, 0x11000000, 0xFFFFFF00, fun w => .crcFeed (imm8Of w)⟩,
  ⟨"CRC.RD", 1, 2, .n, 0x12000000, 0xFFFFFFFF, fun _ => .crcRd⟩,
  ⟨"CRC.BUF", 1, 3, .sk, 0x13000000, 0xFFF8EFF0, fun w => .crcBuf (slotOf w) (srcOf w) (kOf w)⟩]

/-- The rows of family 2, SUM, of R96. -/
def sumRows : List OpRow := [
  ⟨"SUM.INIT", 2, 0, .i, 0x20000000, 0xFFFFF800, fun w => .sumInit (idOf w)⟩,
  ⟨"SUM.FEED", 2, 1, .b, 0x21000000, 0xFFFFFF00, fun w => .sumFeed (imm8Of w)⟩,
  ⟨"SUM.RD", 2, 2, .n, 0x22000000, 0xFFFFFFFF, fun _ => .sumRd⟩,
  ⟨"SUM.BUF", 2, 3, .sk, 0x23000000, 0xFFF8EFF0, fun w => .sumBuf (slotOf w) (srcOf w) (kOf w)⟩]

/-- The rows of family 3, CNT, of R96. -/
def cntRows : List OpRow := [
  ⟨"CNT.LD", 3, 0, .sv, 0x30000000, 0xFFF8FFF0, fun w => .cntLd (slotOf w) (vOf w)⟩,
  ⟨"CNT.INC", 3, 1, .s, 0x31000000, 0xFFF8FFFF, fun w => .cntInc (slotOf w)⟩,
  ⟨"CNT.RD", 3, 2, .s, 0x32000000, 0xFFF8FFFF, fun w => .cntRd (slotOf w)⟩,
  ⟨"CNT.OBS", 3, 3, .s, 0x33000000, 0xFFF8FFFF, fun w => .cntObs (slotOf w)⟩,
  ⟨"CNT.POP", 3, 4, .s, 0x34000000, 0xFFF8FFFF, fun w => .cntPop (slotOf w)⟩,
  ⟨"CNT.FLEN", 3, 5, .s, 0x35000000, 0xFFF8FFFF, fun w => .cntFlen (slotOf w)⟩,
  ⟨"CNT.STEER", 3, 6, .n, 0x36000000, 0xFFFFFFFF, fun _ => .cntSteer⟩,
  ⟨"CNT.RXC", 3, 7, .s, 0x37000000, 0xFFF8FFFF, fun w => .cntRxc (slotOf w)⟩]

/-- The rows of family 4, BUF, of R96. -/
def bufRows : List OpRow := [
  ⟨"BUF.WR", 4, 0, .sib, 0x40000000, 0xFFF8F800, fun w => .bufWr (slotOf w) (idxOf w) (byteOf w)⟩,
  ⟨"BUF.RD", 4, 1, .si, 0x41000000, 0xFFF8E8FF, fun w => .bufRd (slotOf w) (srcOf w) (idxOf w)⟩,
  ⟨"BUF.SNAP", 4, 2, .s, 0x42000000, 0xFFF8FFFF, fun w => .bufSnap (slotOf w)⟩,
  ⟨"BUF.CLR", 4, 3, .s, 0x43000000, 0xFFF8FFFF, fun w => .bufClr (slotOf w)⟩]

/-- The rows of family 5, FRM, of R96. -/
def frmRows : List OpRow := [
  ⟨"FRM.TX", 5, 0, .s, 0x50000000, 0xFFF8FFFF, fun w => .frmTx (slotOf w)⟩]

/-- The rows of family 6, CFG, of R96. -/
def cfgRows : List OpRow := [
  ⟨"CFG.WR", 6, 0, .cw, 0x60000000, 0xFFF80000, fun w => .cfgWr (slotOf w) (fieldOf w) (valueOf w)⟩,
  ⟨"CFG.RD", 6, 1, .cr, 0x61000000, 0xFFF80FFF, fun w => .cfgRd (slotOf w) (fieldOf w)⟩]

/-- The opcode map of R96. -/
def opcodeMap : List OpRow := sysRows ++ crcRows ++ sumRows ++ cntRows ++ bufRows ++ frmRows ++ cfgRows

/-- Decoding (R92): the row of FAM and FN (R87, R88), then the reserved bits of its format (R86), then the operand
values (R89, R90). -/
def decode (w : Word) : Except DecodeError Instr :=
  match opcodeMap.find? (fun r => r.fam == famOf w && r.fn == fnOf w) with
  | none => .error (if famOf w < 7#4 then .reservedFunction else .reservedFamily)
  | some row =>
    if row.format.reservedClear w then
      if (row.make w).wellFormed then .ok (row.make w) else .error row.format.operandError
    else .error .reservedBits

/-! Encoding, format by format (R81, R84). -/

/-- The 3-bit field of a slot or byte index. -/
def indexBits (i : Fin 8) : BitVec 3 := BitVec.ofFin i

/-- The 1-bit field `src` (R85). -/
def BufSrc.bit : BufSrc → BitVec 1
  | .tx => 0#1
  | .rx => 1#1

def encodeN (fam fn : BitVec 4) : Word := fam ++ fn ++ 0#24
def encodeB (fam fn : BitVec 4) (imm8 : BitVec 8) : Word := fam ++ fn ++ 0#16 ++ imm8
def encodeI (fam fn : BitVec 4) (id : BitVec 11) : Word := fam ++ fn ++ 0#13 ++ id
def encodeM (fam fn : BitVec 4) (mask16 : BitVec 16) : Word := fam ++ fn ++ 0#8 ++ mask16
def encodeS (fam fn : BitVec 4) (slot : Slot) : Word := fam ++ fn ++ 0#5 ++ indexBits slot ++ 0#16
def encodeSV (fam fn : BitVec 4) (slot : Slot) (v : BitVec 4) : Word :=
  fam ++ fn ++ 0#5 ++ indexBits slot ++ 0#12 ++ v
def encodeSK (fam fn : BitVec 4) (slot : Slot) (src : BufSrc) (k : BitVec 4) : Word :=
  fam ++ fn ++ 0#5 ++ indexBits slot ++ 0#3 ++ src.bit ++ 0#8 ++ k
def encodeSIB (fam fn : BitVec 4) (slot : Slot) (idx : ByteIndex) (byte : BitVec 8) : Word :=
  fam ++ fn ++ 0#5 ++ indexBits slot ++ 0#5 ++ indexBits idx ++ byte
def encodeSI (fam fn : BitVec 4) (slot : Slot) (src : BufSrc) (idx : ByteIndex) : Word :=
  fam ++ fn ++ 0#5 ++ indexBits slot ++ 0#3 ++ src.bit ++ 0#1 ++ indexBits idx ++ 0#8
def encodeCW (fam fn : BitVec 4) (slot : Slot) (field : BitVec 4) (value : BitVec 12) : Word :=
  fam ++ fn ++ 0#5 ++ indexBits slot ++ field ++ value
def encodeCR (fam fn : BitVec 4) (slot : Slot) (field : BitVec 4) : Word :=
  fam ++ fn ++ 0#5 ++ indexBits slot ++ field ++ 0#12

/-- The word of a command (R96). -/
def encode : Instr → Word
  | .nop => encodeN 0 0
  | .tick => encodeN 0 1
  | .lock => encodeN 0 2
  | .setvar imm8 => encodeB 0 3 imm8
  | .rdvar => encodeN 0 4
  | .rdstat => encodeN 0 5
  | .clrstat mask16 => encodeM 0 6 mask16
  | .rderr => encodeN 0 7
  | .rdcycl => encodeN 0 8
  | .rdcych => encodeN 0 9
  | .setirq mask16 => encodeM 0 10 mask16
  | .rddrop => encodeN 0 11
  | .crcInit => encodeN 1 0
  | .crcFeed imm8 => encodeB 1 1 imm8
  | .crcRd => encodeN 1 2
  | .crcBuf slot src k => encodeSK 1 3 slot src k
  | .sumInit id => encodeI 2 0 id
  | .sumFeed imm8 => encodeB 2 1 imm8
  | .sumRd => encodeN 2 2
  | .sumBuf slot src k => encodeSK 2 3 slot src k
  | .cntLd slot v => encodeSV 3 0 slot v
  | .cntInc slot => encodeS 3 1 slot
  | .cntRd slot => encodeS 3 2 slot
  | .cntObs slot => encodeS 3 3 slot
  | .cntPop slot => encodeS 3 4 slot
  | .cntFlen slot => encodeS 3 5 slot
  | .cntSteer => encodeN 3 6
  | .cntRxc slot => encodeS 3 7 slot
  | .bufWr slot idx byte => encodeSIB 4 0 slot idx byte
  | .bufRd slot src idx => encodeSI 4 1 slot src idx
  | .bufSnap slot => encodeS 4 2 slot
  | .bufClr slot => encodeS 4 3 slot
  | .frmTx slot => encodeS 5 0 slot
  | .cfgWr slot field value => encodeCW 6 0 slot field value
  | .cfgRd slot field => encodeCR 6 1 slot field

/-- The mnemonic of a command, as R96 spells it. -/
def Instr.mnemonic : Instr → String
  | .nop => "NOP"
  | .tick => "TICK"
  | .lock => "LOCK"
  | .setvar _ => "SETVAR"
  | .rdvar => "RDVAR"
  | .rdstat => "RDSTAT"
  | .clrstat _ => "CLRSTAT"
  | .rderr => "RDERR"
  | .rdcycl => "RDCYCL"
  | .rdcych => "RDCYCH"
  | .setirq _ => "SETIRQ"
  | .rddrop => "RDDROP"
  | .crcInit => "CRC.INIT"
  | .crcFeed _ => "CRC.FEED"
  | .crcRd => "CRC.RD"
  | .crcBuf _ _ _ => "CRC.BUF"
  | .sumInit _ => "SUM.INIT"
  | .sumFeed _ => "SUM.FEED"
  | .sumRd => "SUM.RD"
  | .sumBuf _ _ _ => "SUM.BUF"
  | .cntLd _ _ => "CNT.LD"
  | .cntInc _ => "CNT.INC"
  | .cntRd _ => "CNT.RD"
  | .cntObs _ => "CNT.OBS"
  | .cntPop _ => "CNT.POP"
  | .cntFlen _ => "CNT.FLEN"
  | .cntSteer => "CNT.STEER"
  | .cntRxc _ => "CNT.RXC"
  | .bufWr _ _ _ => "BUF.WR"
  | .bufRd _ _ _ => "BUF.RD"
  | .bufSnap _ => "BUF.SNAP"
  | .bufClr _ => "BUF.CLR"
  | .frmTx _ => "FRM.TX"
  | .cfgWr _ _ _ => "CFG.WR"
  | .cfgRd _ _ => "CFG.RD"

/-- The instruction the decoder reads from the `nbits` low bits of `w`, the bits above them 0. Every command is one
32-bit word, presented whole on the command port (R80, R81). -/
def decodeTableWord (nbits w : Nat) : Option Instr := (decode (BitVec.ofNat 32 (w % 2 ^ nbits))).toOption

end Sys2Proof
end

