-- ==== Sys2Proof/Config.lean ====
section
/-! DEFINITION. What an implementation of the block fixes: the three parameters of 00_scope.md R8. -/

namespace Sys2Proof

/-- The FamilyA cancel authentication table, position by counter. The spec gives it no value and no default
(R8, R119, D17), so it is a FREE VALUE: a constant with no body, of which nothing can be proved (log entry 6). -/
opaque Config.authTable : Fin 2 → Fin 16 → Byte

/-- The parameters "that a model receives as arguments" (R8). They are carried by the state, which never writes
them (log entry 5), so a statement about every state is a statement about every choice of them. -/
structure Params where
  /-- `CRC8_INIT`, the initial value of the CRC shift register. -/
  crc8Init : Byte
  /-- `CTR_FIFO_DEPTH`, 1..15. -/
  fifoDepth : Nat
  /-- `AUTH_TABLE`, row 0 for the active frame and row 1 for the neutral frame, each indexed by the counter. -/
  authTable : Vector (Vector Byte 16) 2
  deriving DecidableEq, Repr

/-- The defaults of R8: `CRC8_INIT = 0xFF`, `CTR_FIFO_DEPTH = 4`, and the table without a default left free. -/
def Params.default : Params where
  crc8Init := 0xFF
  fifoDepth := 4
  authTable := Vector.ofFn fun p => Vector.ofFn fun v => Config.authTable p v

/-- The range R8 gives the parameters. -/
abbrev Params.Legal (p : Params) : Prop := 1 ≤ p.fifoDepth ∧ p.fifoDepth ≤ 15

end Sys2Proof
end

