-- ==== Sys2Proof/Machine/State.lean ====
section
/-! DEFINITION. The state of the block (10_state.md R20–R43), the arrivals on its input ports, its outputs, and the
state after reset (70_reset_and_hazards.md R320). -/

namespace Sys2Proof.Machine

/-- The vehicle variant: `FAM` 0 is FamilyA, 1 is FamilyB (R27). -/
inductive Family where
  | a
  | b
  deriving DecidableEq, Repr

/-- The authentication scheme of a slot, the sub-field KIND (R33, R241). -/
inductive AuthKind where
  | none
  | sum
  | crc
  | table
  deriving DecidableEq, Repr

/-- The outbound role of a slot, the field CLASS (R33, R245). -/
inductive SlotClass where
  | other
  | steer
  | long
  | cancel
  deriving DecidableEq, Repr

/-- One entry of the message-ID table (R33). -/
structure TblEntry where
  valid : Bool
  rxEn : Bool
  txEn : Bool
  id : BitVec 11
  len : BitVec 4
  rxMask : BitVec 3
  txMask : BitVec 3
  kind : AuthKind
  k : BitVec 3
  pos : BitVec 3
  ctrEn : Bool
  ctrByte : BitVec 3
  ctrLsb : BitVec 3
  cmdByte : BitVec 3
  cmdLsb : BitVec 3
  cmdWm1 : BitVec 3
  cmdv : BitVec 8
  cls : SlotClass
  deriving DecidableEq, Repr

/-- "Every field resets to 0" (R33). -/
def TblEntry.zero : TblEntry where
  valid := false
  rxEn := false
  txEn := false
  id := 0
  len := 0
  rxMask := 0
  txMask := 0
  kind := .none
  k := 0
  pos := 0
  ctrEn := false
  ctrByte := 0
  ctrLsb := 0
  cmdByte := 0
  cmdLsb := 0
  cmdWm1 := 0
  cmdv := 0
  cls := .other

/-- One frame of the frame-out stream (R39, R97): `data` holds its `len` payload bytes, byte 0 first. -/
structure Frame where
  bus : BitVec 2
  id : BitVec 11
  len : BitVec 4
  data : List Byte
  deriving DecidableEq, Repr

/-- One frame as the RX port presents it (R95). -/
structure RxFrame where
  bus : BitVec 2
  id : BitVec 11
  len : BitVec 4
  data : Vector Byte 8
  deriving DecidableEq, Repr

/-- One arrival at the block: a command word on the command port (R80), a frame on the RX port (R95, R202), or the
reset input (R321). -/
inductive Input where
  | command (w : Word)
  | receive (f : RxFrame)
  | reset
  deriving DecidableEq, Repr

/-- The response of a command, 21 bits: E[20], CODE[19:16], DATA[15:0] (R83). -/
abbrev Response := BitVec 21

/-- The state of the block (R20), its outputs `resp` and `out` (R39), the parameters it runs under (R8) and the
arrivals still to come on its ports (R68). -/
structure State where
  /-- The parameters; no step writes them (R320; log entry 5). -/
  params : Params
  /-- `CRC`, the CRC shift register (R22). -/
  crc : BitVec 8
  /-- `SUM`, the modular-sum accumulator (R23). -/
  sum : BitVec 8
  /-- `CYC`, the adapter cycle counter (R25). -/
  cyc : BitVec 32
  /-- `PHASE`, the highest frame class emitted since the last TICK (R26). -/
  phase : BitVec 2
  /-- `FAM`, the vehicle family (R27). -/
  fam : Family
  /-- `SUB`, the FamilyB sub-flag (R27). -/
  sub : Bool
  /-- `LOCKED` (R28). -/
  locked : Bool
  /-- `STATUS`, the sticky event bits (R29). -/
  status : BitVec 16
  /-- `ERR`, the code of the most recent failing command (R30). -/
  err : BitVec 4
  /-- `IRQ_EN`, the interrupt enable mask (R31). -/
  irqEn : BitVec 16
  /-- `RX_DROP`, the saturating count of dropped frames (R32). -/
  rxDrop : BitVec 8
  /-- `TBL[s]`, the message-ID table (R33). -/
  tbl : Vector TblEntry 8
  /-- `TXBUF[s][i]`, the template payloads (R34). -/
  txbuf : Vector (Vector Byte 8) 8
  /-- `RXBUF[s][i]`, the last received payloads (R35). -/
  rxbuf : Vector (Vector Byte 8) 8
  /-- `RXCNT[s]`, the arrival counts (R36). -/
  rxcnt : Vector (BitVec 8) 8
  /-- `CTR[s]`, the slots' own counters (R24). -/
  ctr : Vector Counter 8
  /-- `LAST[s]`, the last observed counters (R37). -/
  last : Vector Counter 8
  /-- `LASTV[s]`, whether a counter was observed (R37). -/
  lastv : Vector Bool 8
  /-- `FIFO[s]`, the buffered observed counters, oldest first (R38). -/
  fifo : Vector (List Counter) 8
  /-- The response of the latest step, none where that step gave none (R83, R211; log entry 3). -/
  resp : Option Response
  /-- `OUT`, the frames emitted since reset, oldest first (R39; log entry 4). -/
  out : List Frame
  /-- The arrivals still to come, in their total order (R68; log entry 1). -/
  inputs : List Input
  deriving DecidableEq, Repr

/-- The block never halts: a failing command reports its error and "the next command is decoded normally" (R291), no
trap exists (R294) and every word decodes (R92). So no step faults and there is no reason for one (log entry 9). -/
inductive Fault where
  deriving DecidableEq, Repr

/-- Why the model gives an instruction no meaning. -/
inductive Refusal where
  /-- Raised by an arm of `exec` for an instruction without a meaning; no arm raises it, since every instruction has
  one. Safe: the model stops where the hardware goes on. -/
  | notModelled (mnemonic : String)
  deriving DecidableEq, Repr

/-- What one step answers. -/
abbrev Result := Host.Outcome State Fault Refusal

/-- The state after reset under the given parameters (R320); nothing has arrived yet. -/
def State.resetWith (p : Params) : State where
  params := p
  crc := p.crc8Init
  sum := 0x00
  cyc := 0x00000000
  phase := 0
  fam := .a
  sub := false
  locked := false
  status := 0x0000
  err := 0
  irqEn := 0x0000
  rxDrop := 0
  tbl := Vector.replicate 8 TblEntry.zero
  txbuf := Vector.replicate 8 (Vector.replicate 8 0x00)
  rxbuf := Vector.replicate 8 (Vector.replicate 8 0x00)
  rxcnt := Vector.replicate 8 0
  ctr := Vector.replicate 8 0
  last := Vector.replicate 8 0
  lastv := Vector.replicate 8 false
  fifo := Vector.replicate 8 []
  resp := none
  out := []
  inputs := []

/-- The state after reset under the default parameters (R320, R8). -/
def State.reset : State := State.resetWith Params.default

end Sys2Proof.Machine
end

