-- ==== Sys2Proof/Machine/Flags.lean ====
section
/-! DEFINITION. The only flags of the block (10_state.md R40): the sticky `STATUS` bits, the error codes that name
them (60_exceptions.md R290), the response word (30_encoding.md R83) and the interrupt level (60_exceptions.md R297). -/

namespace Sys2Proof.Machine

/-- The errors a command can report (R290, codes 1..9). -/
inductive ErrCode where
  | illegal
  | locked
  | notLocked
  | badVal
  | cfg
  | slot
  | order
  | parity
  | noCtr
  deriving DecidableEq, Repr

/-- The events a reception can raise (R290, codes 10..12). -/
inductive RxEvent where
  | rxLen
  | fifoOvf
  | rxDrop
  deriving DecidableEq, Repr

/-- The code of an error (R290). -/
def ErrCode.code : ErrCode → BitVec 4
  | .illegal => 1
  | .locked => 2
  | .notLocked => 3
  | .badVal => 4
  | .cfg => 5
  | .slot => 6
  | .order => 7
  | .parity => 8
  | .noCtr => 9

/-- The code of a reception event (R290). -/
def RxEvent.code : RxEvent → BitVec 4
  | .rxLen => 10
  | .fifoOvf => 11
  | .rxDrop => 12

/-- "A code's number is also the index of its STATUS bit" (R290). -/
def statusBit (code : BitVec 4) : BitVec 16 := 1#16 <<< code.toNat

/-- The response of a command that succeeded: E = 0, CODE = 0 (R83). -/
def okResponse (data : BitVec 16) : Response := 0#1 ++ 0#4 ++ data

/-- The response of a command that failed: E = 1, DATA = 0 (R83, R291). -/
def errResponse (e : ErrCode) : Response := 1#1 ++ e.code ++ 0#16

/-- The bit E of a response (R83). -/
def Response.e (r : Response) : BitVec 1 := r.extractLsb' 20 1

/-- The field CODE of a response (R83). -/
def Response.code (r : Response) : BitVec 4 := r.extractLsb' 16 4

/-- The field DATA of a response (R83). -/
def Response.data (r : Response) : BitVec 16 := r.extractLsb' 0 16

/-- The interrupt output, `irq = ((STATUS & IRQ_EN) ≠ 0)` (R297). -/
def State.irq (s : State) : Bool := s.status &&& s.irqEn != 0

end Sys2Proof.Machine
end

