-- ==== Sys2Proof/Machine/Operands.lean ====
section
/-! DEFINITION. The operand forms of the commands (30_encoding.md R84, R85): buffer sources, byte counts, and the
table fields that `CFG.WR` and `CFG.RD` address by number (10_state.md R33; 44_buffers_config.md R235–R245). -/

namespace Sys2Proof.Machine

/-- The buffer the operand `src` selects (R85). -/
def State.buffer (s : State) (src : BufSrc) (slot : Slot) : Vector Byte 8 :=
  match src with
  | .tx => s.txbuf[slot]
  | .rx => s.rxbuf[slot]

/-- The bytes `B[0..k-1]` of a buffer. -/
def leading (b : Vector Byte 8) (k : BitVec 4) : List Byte := b.toList.take k.toNat

/-- KIND by its number (R33). -/
def AuthKind.ofBits (v : BitVec 2) : AuthKind :=
  match v.toNat with
  | 0 => .none
  | 1 => .sum
  | 2 => .crc
  | _ => .table

/-- The number of a KIND (R33). -/
def AuthKind.bits : AuthKind → BitVec 2
  | .none => 0
  | .sum => 1
  | .crc => 2
  | .table => 3

/-- CLASS by its number (R33). -/
def SlotClass.ofBits (v : BitVec 2) : SlotClass :=
  match v.toNat with
  | 0 => .other
  | 1 => .steer
  | 2 => .long
  | _ => .cancel

/-- The number of a CLASS, which is its rank in the cycle order (R33, R245). -/
def SlotClass.bits : SlotClass → BitVec 2
  | .other => 0
  | .steer => 1
  | .long => 2
  | .cancel => 3

/-- `legal(field, value)` of R235. -/
def legalValue (field : BitVec 4) (value : BitVec 12) : Bool :=
  match field.toNat with
  | 0 => value ≤ 0x007#12
  | 1 => value ≤ 0x7FF#12
  | 2 => 1#12 ≤ value && value ≤ 8#12
  | 3 => value ≤ 0x007#12
  | 4 => value ≤ 0x007#12
  | 5 => value ≤ 0x0FF#12
  | 6 => value ≤ 0x07F#12 && value.extractLsb' 4 3 ≤ 4#3
  | 7 => value ≤ 0x1FF#12 && (value.extractLsb' 3 3).toNat + (value.extractLsb' 6 3).toNat + 1 ≤ 8
  | 8 => value ≤ 0x0FF#12
  | 9 => value ≤ 0x003#12
  | _ => false

/-- The entry with the sub-fields of one field number written from a `CFG.WR` value (R33, R234, R237–R245). -/
def TblEntry.writeField (e : TblEntry) (field : BitVec 4) (value : BitVec 12) : TblEntry :=
  match field.toNat with
  | 0 => { e with valid := value.getLsbD 0, rxEn := value.getLsbD 1, txEn := value.getLsbD 2 }
  | 1 => { e with id := value.extractLsb' 0 11 }
  | 2 => { e with len := value.extractLsb' 0 4 }
  | 3 => { e with rxMask := value.extractLsb' 0 3 }
  | 4 => { e with txMask := value.extractLsb' 0 3 }
  | 5 => { e with kind := AuthKind.ofBits (value.extractLsb' 0 2), k := value.extractLsb' 2 3,
                  pos := value.extractLsb' 5 3 }
  | 6 => { e with ctrEn := value.getLsbD 0, ctrByte := value.extractLsb' 1 3, ctrLsb := value.extractLsb' 4 3 }
  | 7 => { e with cmdByte := value.extractLsb' 0 3, cmdLsb := value.extractLsb' 3 3,
                  cmdWm1 := value.extractLsb' 6 3 }
  | 8 => { e with cmdv := value.extractLsb' 0 8 }
  | 9 => { e with cls := SlotClass.ofBits (value.extractLsb' 0 2) }
  | _ => e

/-- `zext_16(pack(TBL[slot], field))` of R236, in the layout of R33. -/
def TblEntry.pack (e : TblEntry) (field : BitVec 4) : BitVec 16 :=
  match field.toNat with
  | 0 => (BitVec.ofBool e.txEn ++ BitVec.ofBool e.rxEn ++ BitVec.ofBool e.valid).setWidth 16
  | 1 => e.id.setWidth 16
  | 2 => e.len.setWidth 16
  | 3 => e.rxMask.setWidth 16
  | 4 => e.txMask.setWidth 16
  | 5 => (e.pos ++ e.k ++ e.kind.bits).setWidth 16
  | 6 => (e.ctrLsb ++ e.ctrByte ++ BitVec.ofBool e.ctrEn).setWidth 16
  | 7 => (e.cmdWm1 ++ e.cmdLsb ++ e.cmdByte).setWidth 16
  | 8 => e.cmdv.setWidth 16
  | 9 => e.cls.bits.setWidth 16
  | _ => 0

end Sys2Proof.Machine
end

