-- ==== Sys2Proof/Machine/Ops.lean ====
section
/-! DEFINITION. The shared operations of the block: ending a command with a response or with an error
(60_exceptions.md R291), raising a reception event (R296), writing slot storage, the CRC (40_crc.md R110–R112) and
the modular sum (41_checksum.md R130, R131), and appending to the frame-out stream (43_frame_mux.md R183). -/

namespace Sys2Proof.Machine

/-! ## Ending a command -/

/-- `respond(data)`: the command ends successfully (R11, R83). -/
def respond (data : BitVec 16) (s : State) : State := { s with resp := some (okResponse data) }

/-- `fail(e)`: the whole effect of a failing command (R291). It is what the block has in place of taking an
exception: nothing is saved, no mode changes and control goes nowhere, so there is no return from it (R294, R295). -/
def fail (e : ErrCode) (s : State) : State :=
  { s with status := s.status ||| statusBit e.code, err := e.code, resp := some (errResponse e) }

/-- A reception event sets its STATUS bit only (R296). -/
def raise (ev : RxEvent) (s : State) : State := { s with status := s.status ||| statusBit ev.code }

/-! ## Slot storage -/

/-- `TXBUF[slot][idx] <- b`. -/
def writeTx (slot : Slot) (idx : ByteIndex) (b : Byte) (s : State) : State :=
  { s with txbuf := s.txbuf.set slot (s.txbuf[slot].set idx b) }

/-- All 8 bytes of `TXBUF[slot]` written at once. -/
def loadTx (slot : Slot) (d : Vector Byte 8) (s : State) : State := { s with txbuf := s.txbuf.set slot d }

/-- `CTR[slot] <- v`. -/
def setCtr (slot : Slot) (v : Counter) (s : State) : State := { s with ctr := s.ctr.set slot v }

/-- `FIFO[slot] <- q`. -/
def setFifo (slot : Slot) (q : List Counter) (s : State) : State := { s with fifo := s.fifo.set slot q }

/-- `steer_ctr(CYC) = CYC[4:1]` (R151). -/
def steerCtr (cyc : BitVec 32) : Counter := cyc.extractLsb' 1 4

/-! ## The CRC -/

/-- One turn of the loop of R112. -/
def crcShift (r : Byte) : Byte := if r.getLsbD 7 then (r <<< 1) ^^^ 0x1D#8 else r <<< 1

/-- `crc8_step(r, b)` (R112). -/
def crc8Step (r b : Byte) : Byte := Nat.repeat crcShift 8 (r ^^^ b)

/-- The register after feeding bytes in index order from the register value `r`. -/
def crcFeed (r : Byte) (d : List Byte) : Byte := d.foldl crc8Step r

/-- `crc8(d)` under the initial value `init` (R111). -/
def crc8 (init : Byte) (d : List Byte) : Byte := crcFeed init d ^^^ 0xFF#8

/-! ## The modular sum -/

/-- `key(id)` (R130). -/
def key (id : BitVec 11) : Byte := id.extractLsb' 0 8 + (id.extractLsb' 8 3).setWidth 8

/-- `sum8(id, d)` (R131). -/
def sum8 (id : BitVec 11) (d : List Byte) : Byte := d.foldl (· + ·) (key id)

/-! ## The frame-out stream -/

/-- The frames of one command, appended to `OUT` in their order (R183, R69). -/
def emitFrames (fs : List Frame) (s : State) : State := { s with out := s.out ++ fs }

end Sys2Proof.Machine
end

