-- ==== Sys2Proof/Machine/Buf.lean ====
section
/-! DEFINITION. The meanings of the BUF family (44_buffers_config.md R230–R233). None consults `LOCKED`, `VALID` or
`LEN` (D35). -/

namespace Sys2Proof.Machine

/-- BUF.WR sN[idx], byte (R230). -/
def execBufWr (slot : Slot) (idx : ByteIndex) (byte : BitVec 8) (s : State) : Result :=
  .next (respond 0 (writeTx slot idx byte s))

/-- BUF.RD src sN[idx] (R231). -/
def execBufRd (slot : Slot) (src : BufSrc) (idx : ByteIndex) (s : State) : Result :=
  .next (respond ((s.buffer src slot)[idx].setWidth 16) s)

/-- BUF.SNAP sN (R232): all 8 bytes, whatever `LEN` is. -/
def execBufSnap (slot : Slot) (s : State) : Result := .next (respond 0 (loadTx slot s.rxbuf[slot] s))

/-- BUF.CLR sN (R233). -/
def execBufClr (slot : Slot) (s : State) : Result := .next (respond 0 (loadTx slot (Vector.replicate 8 0x00) s))

end Sys2Proof.Machine
end

