-- ==== Sys2Proof/Machine/Cfg.lean ====
section
/-! DEFINITION. The meanings of the CFG family (44_buffers_config.md R234–R236). -/

namespace Sys2Proof.Machine

/-- CFG.WR sN.FIELD, value (R234). -/
def execCfgWr (slot : Slot) (field : BitVec 4) (value : BitVec 12) (s : State) : Result :=
  if ¬ legalField field then .next (fail .illegal s)
  else if s.locked then .next (fail .locked s)
  else if ¬ legalValue field value then .next (fail .badVal s)
  else .next (respond 0 { s with tbl := s.tbl.set slot (s.tbl[slot].writeField field value) })

/-- CFG.RD sN.FIELD (R236). -/
def execCfgRd (slot : Slot) (field : BitVec 4) (s : State) : Result :=
  if ¬ legalField field then .next (fail .illegal s)
  else .next (respond (s.tbl[slot].pack field) s)

end Sys2Proof.Machine
end

