-- ==== Sys2Proof/Machine/Cnt.lean ====
section
/-! DEFINITION. The meanings of the CNT family (42_counter.md R152–R159). None consults `LOCKED` or `VALID` (D35). -/

namespace Sys2Proof.Machine

/-- CNT.LD sN, v (R152). -/
def execCntLd (slot : Slot) (v : BitVec 4) (s : State) : Result := .next (respond 0 (setCtr slot v s))

/-- CNT.INC sN (R153): the response is the new value. -/
def execCntInc (slot : Slot) (s : State) : Result :=
  .next (respond ((s.ctr[slot] + 1).setWidth 16) (setCtr slot (s.ctr[slot] + 1) s))

/-- CNT.RD sN (R154). -/
def execCntRd (slot : Slot) (s : State) : Result := .next (respond (s.ctr[slot].setWidth 16) s)

/-- CNT.OBS sN (R155): `LASTV[slot] << 4 | LAST[slot]`. -/
def execCntObs (slot : Slot) (s : State) : Result :=
  .next (respond ((BitVec.ofBool s.lastv[slot] ++ s.last[slot]).setWidth 16) s)

/-- CNT.POP sN (R158): the only read with a side effect (R67). An empty FIFO is not an error. -/
def execCntPop (slot : Slot) (s : State) : Result :=
  match s.fifo[slot] with
  | v :: rest => .next (respond ((1#1 ++ v).setWidth 16) (setFifo slot rest s))
  | [] => .next (respond 0 s)

/-- CNT.FLEN sN (R157). -/
def execCntFlen (slot : Slot) (s : State) : Result := .next (respond (BitVec.ofNat 16 s.fifo[slot].length) s)

/-- CNT.STEER (R156): `CYC[4:1]`. -/
def execCntSteer (s : State) : Result := .next (respond ((steerCtr s.cyc).setWidth 16) s)

/-- CNT.RXC sN (R159). -/
def execCntRxc (slot : Slot) (s : State) : Result := .next (respond (s.rxcnt[slot].setWidth 16) s)

end Sys2Proof.Machine
end

