-- ==== Sys2Proof/Machine/Crc.lean ====
section
/-! DEFINITION. The meanings of the CRC family (40_crc.md R113–R116). -/

namespace Sys2Proof.Machine

/-- The CRC result of a register value, `CRC ^ 0xFF`, as response data (R115). -/
def crcData (r : Byte) : BitVec 16 := (r ^^^ 0xFF#8).setWidth 16

/-- CRC.INIT (R113): `CRC <- CRC8_INIT`. -/
def execCrcInit (s : State) : Result := .next (respond 0 { s with crc := s.params.crc8Init })

/-- CRC.FEED imm8 (R114). -/
def execCrcFeed (imm8 : BitVec 8) (s : State) : Result :=
  .next (respond (crcData (crc8Step s.crc imm8)) { s with crc := crc8Step s.crc imm8 })

/-- CRC.RD (R115). -/
def execCrcRd (s : State) : Result := .next (respond (crcData s.crc) s)

/-- CRC.BUF src sN, k (R116): k > 8 is illegal (R89); neither `LOCKED` nor the slot's validity is consulted. -/
def execCrcBuf (slot : Slot) (src : BufSrc) (k : BitVec 4) (s : State) : Result :=
  if legalCount k then
    .next (respond (crcData (crcFeed s.params.crc8Init (leading (s.buffer src slot) k)))
      { s with crc := crcFeed s.params.crc8Init (leading (s.buffer src slot) k) })
  else .next (fail .illegal s)

end Sys2Proof.Machine
end

