-- ==== Sys2Proof/Machine/Frame.lean ====
section
/-! DEFINITION. Building the frames of a slot (43_frame_mux.md R181–R185) and choosing them by class and family
(R191–R199). -/

namespace Sys2Proof.Machine

/-- The command-field selection of `build` (R184). -/
inductive CmdSel where
  | none
  | active
  | neutral
  deriving DecidableEq, Repr

/-- `setfield` within the byte it touches (R181); `x` is truncated to the field. -/
def insertBits (old : Byte) (lsb w : Nat) (x : Byte) : Byte :=
  let m : Byte := ((1#8 <<< w) - 1#8) <<< lsb
  (old &&& ~~~m) ||| ((x <<< lsb) &&& m)

/-- `setfield(d, j, lsb, w, x)` (R181). An index past the payload writes nothing: no locked table has one
(R248, R249; log entry 8). -/
def setField (d : List Byte) (j lsb w : Nat) (x : Byte) : List Byte := d.modify j fun old => insertBits old lsb w x

/-- `buses(mask)` (R182): the bus numbers 0..2 of the mask, in increasing order. -/
def buses (mask : BitVec 3) : List (BitVec 2) := [0#2, 1#2, 2#2].filter fun b => mask.getLsbD b.toNat

/-- `AUTH_TABLE[p][v]` (R8). -/
def authByte (t : Vector (Vector Byte 16) 2) (p : Fin 2) (v : Counter) : Byte := t[p][v.toFin]

/-- `authenticate(s, d, v, p)` for the table entry `e` (R185). -/
def authenticate (params : Params) (e : TblEntry) (d : List Byte) (v : Counter) (p : Fin 2) : List Byte :=
  match e.kind with
  | .none => d
  | .sum => d.set e.pos.toNat (sum8 e.id (d.take e.k.toNat))
  | .crc => d.set e.pos.toNat (crc8 params.crc8Init (d.take e.k.toNat))
  | .table => d.set e.pos.toNat (authByte params.authTable p v)

/-- The command field put into a payload (R184): `CMDV` in an active frame, 0 in a neutral one. -/
def placeCmd (e : TblEntry) (sel : CmdSel) (d : List Byte) : List Byte :=
  match sel with
  | .none => d
  | .active => setField d e.cmdByte.toNat e.cmdLsb.toNat (e.cmdWm1.toNat + 1) e.cmdv
  | .neutral => setField d e.cmdByte.toNat e.cmdLsb.toNat (e.cmdWm1.toNat + 1) 0

/-- The counter nibble put into a payload (R184). -/
def placeCtr (e : TblEntry) (v : Counter) (d : List Byte) : List Byte :=
  if e.ctrEn then setField d e.ctrByte.toNat e.ctrLsb.toNat 4 (v.setWidth 8) else d

/-- `build(s, v, sel, p)` (R184): the command field and the counter first, the authentication byte last. -/
def build (s : State) (slot : Slot) (v : Counter) (sel : CmdSel) (p : Fin 2) : List Byte :=
  let e := s.tbl[slot]
  authenticate s.params e (placeCtr e v (placeCmd e sel (s.txbuf[slot].toList.take e.len.toNat))) v p

/-- `for b in buses(e.TXMASK): emit(b, e.ID, e.LEN, build(slot, v, sel, p))`. -/
def onBuses (s : State) (slot : Slot) (v : Counter) (sel : CmdSel) (p : Fin 2) : List Frame :=
  (buses s.tbl[slot].txMask).map fun b =>
    { bus := b, id := s.tbl[slot].id, len := s.tbl[slot].len, data := build s slot v sel p }

/-- The 16 counters of a FamilyB sweep, from its base (R199). -/
def sweep (c0 : Counter) : List Counter := (List.range 16).map fun i => c0 + BitVec.ofNat 4 i

/-- The base counter of a cancel sequence, `(LAST[slot] + 1) mod 16` (R198, R199). -/
def cancelBase (s : State) (slot : Slot) : Counter := s.last[slot] + 1

/-- The frames of one `FRM.TX` on the slot, by class and family (R191–R199). -/
def txFrames (s : State) (slot : Slot) : List Frame :=
  match s.tbl[slot].cls, s.fam with
  | .other, _ => onBuses s slot s.ctr[slot] .none 0
  | .steer, _ => onBuses s slot (steerCtr s.cyc) .none 0
  | .long, .a =>
    match s.fifo[slot].getLast? with
    | some v => onBuses s slot v .none 0
    | none => []
  | .long, .b => s.fifo[slot].flatMap fun v => onBuses s slot v .none 0
  | .cancel, .a =>
    onBuses s slot (cancelBase s slot) .active 0 ++ onBuses s slot (cancelBase s slot + 1) .neutral 1
  | .cancel, .b => (sweep (cancelBase s slot)).flatMap fun v => onBuses s slot v .active 0

end Sys2Proof.Machine
end

