-- ==== Sys2Proof/Machine/Frm.lean ====
section
/-! DEFINITION. The meaning of FRM.TX (43_frame_mux.md R186–R200). -/

namespace Sys2Proof.Machine

/-- The first failing check of `FRM.TX`, in the order of R186 and R292. -/
def txError (s : State) (slot : Slot) : Option ErrCode :=
  let e := s.tbl[slot]
  if s.locked = false then some .notLocked
  else if e.valid = false ∨ e.txEn = false then some .slot
  else if e.cls ≠ .other ∧ e.cls.bits < s.phase then some .order
  else if e.cls = .steer ∧ s.cyc.getLsbD 0 = true then some .parity
  else if e.cls = .long ∧ s.fam = .a ∧ s.fifo[slot] = [] then some .noCtr
  else if e.cls = .cancel ∧ s.lastv[slot] = false then some .noCtr
  else none

/-- What a successful `FRM.TX` writes besides `OUT`: an OTHER slot advances its own counter where it carries one
(R192), a LONG slot empties its FIFO (R196, R197), and every class but OTHER becomes `PHASE` (R190). -/
def afterTx (slot : Slot) (s : State) : State :=
  match s.tbl[slot].cls with
  | .other => if s.tbl[slot].ctrEn then setCtr slot (s.ctr[slot] + 1) s else s
  | .steer => { s with phase := SlotClass.steer.bits }
  | .long => { setFifo slot [] s with phase := SlotClass.long.bits }
  | .cancel => { s with phase := SlotClass.cancel.bits }

/-- FRM.TX sN (R186); the response is the number of frames emitted (R200). -/
def execFrmTx (slot : Slot) (s : State) : Result :=
  match txError s slot with
  | some e => .next (fail e s)
  | none =>
    .next (respond (BitVec.ofNat 16 (txFrames s slot).length) (emitFrames (txFrames s slot) (afterTx slot s)))

end Sys2Proof.Machine
end

