-- ==== Sys2Proof/Machine/Sum.lean ====
section
/-! DEFINITION. The meanings of the SUM family (41_checksum.md R133–R136). -/

namespace Sys2Proof.Machine

/-- `SUM <- v; respond(zext_16(SUM))`. -/
def setSum (v : Byte) (s : State) : State := respond (v.setWidth 16) { s with sum := v }

/-- SUM.INIT id (R133). -/
def execSumInit (id : BitVec 11) (s : State) : Result := .next (setSum (key id) s)

/-- SUM.FEED imm8 (R134). -/
def execSumFeed (imm8 : BitVec 8) (s : State) : Result := .next (setSum (s.sum + imm8) s)

/-- SUM.RD (R135). -/
def execSumRd (s : State) : Result := .next (respond (s.sum.setWidth 16) s)

/-- SUM.BUF src sN, k (R136): the slot must be valid, since the key needs its id. -/
def execSumBuf (slot : Slot) (src : BufSrc) (k : BitVec 4) (s : State) : Result :=
  if ¬ legalCount k then .next (fail .illegal s)
  else if s.tbl[slot].valid = false then .next (fail .slot s)
  else .next (setSum (sum8 s.tbl[slot].id (leading (s.buffer src slot) k)) s)

end Sys2Proof.Machine
end

