-- ==== Sys2Proof/Machine/Lock.lean ====
section
/-! DEFINITION. The validation of the message-ID table by LOCK (44_buffers_config.md R246–R251). -/

namespace Sys2Proof.Machine

/-- The structural checks of one valid entry (R248, checks 1 to 5). -/
abbrev TblEntry.StructureOk (e : TblEntry) : Prop :=
  (1 ≤ e.len.toNat ∧ e.len.toNat ≤ 8) ∧
  ((e.txEn = true → e.txMask ≠ 0) ∧ (e.rxEn = true → e.rxMask ≠ 0)) ∧
  (e.kind = .sum ∨ e.kind = .crc → e.k.toNat ≤ e.pos.toNat ∧ e.pos.toNat < e.len.toNat) ∧
  (e.kind = .table → e.pos.toNat < e.len.toNat) ∧
  (e.ctrEn = true →
    e.ctrByte.toNat < e.len.toNat ∧
    (e.kind = .sum ∨ e.kind = .crc → e.ctrByte.toNat < e.k.toNat) ∧
    (e.kind = .table → e.ctrByte ≠ e.pos))

/-- The bit ranges of the command field and of the counter nibble have no bit in common. -/
abbrev TblEntry.FieldsDisjoint (e : TblEntry) : Prop :=
  e.cmdLsb.toNat + e.cmdWm1.toNat < e.ctrLsb.toNat ∨ e.ctrLsb.toNat + 3 < e.cmdLsb.toNat

/-- The class checks of one valid entry (R249, checks 1 to 3). -/
abbrev TblEntry.ClassOk (e : TblEntry) : Prop :=
  (e.cls ≠ .other → e.txEn = true ∧ e.ctrEn = true) ∧
  (e.cls = .long ∨ e.cls = .cancel → e.rxEn = true) ∧
  (e.cls = .cancel →
    e.cmdByte.toNat < e.len.toNat ∧
    e.cmdv.toNat < 2 ^ (e.cmdWm1.toNat + 1) ∧
    (e.kind ≠ .none → e.cmdByte ≠ e.pos) ∧
    (e.cmdByte = e.ctrByte → e.FieldsDisjoint))

/-- The variant check of one valid entry (R250). -/
abbrev TblEntry.VariantOk (fam : Family) (e : TblEntry) : Prop := e.kind = .table ↔ e.cls = .cancel ∧ fam = .a

/-- Two entries would both receive one `(bus, id)` (R251). -/
abbrev TblEntry.Collides (a b : TblEntry) : Prop :=
  a.rxEn = true ∧ b.rxEn = true ∧ a.id = b.id ∧ a.rxMask &&& b.rxMask ≠ 0

/-- A valid entry passes R248, R249 and R250. -/
def TblEntry.entryOk (fam : Family) (e : TblEntry) : Bool :=
  decide e.StructureOk && decide e.ClassOk && decide (e.VariantOk fam)

/-- `valid_table()` (R247): every valid entry passes, and no two of them collide; the entries with `VALID = 0` are not
checked. -/
def validTable (s : State) : Bool :=
  decide (∀ i : Slot, s.tbl[i].valid = true → s.tbl[i].entryOk s.fam = true) &&
  decide (∀ i j : Slot, i ≠ j → s.tbl[i].valid = true → s.tbl[j].valid = true → ¬ s.tbl[i].Collides s.tbl[j])

end Sys2Proof.Machine
end

