-- ==== Sys2Proof/Machine/Sys.lean ====
section
/-! DEFINITION. The meanings of the SYS family (45_system.md R270–R281). -/

namespace Sys2Proof.Machine

/-- NOP (R270). -/
def execNop (s : State) : Result := .next (respond 0 s)

/-- TICK (R271): `CYC <- (CYC + 1) mod 2^32; PHASE <- 0`. -/
def execTick (s : State) : Result := .next (respond 0 { s with cyc := s.cyc + 1, phase := 0 })

/-- LOCK (R272): validates the table and freezes the configuration. -/
def execLock (s : State) : Result :=
  if s.locked then .next (fail .locked s)
  else if validTable s = false then .next (fail .cfg s)
  else .next (respond 0 { s with locked := true })

/-- SETVAR imm8 (R273): the legal values are 0, 1 and 3. -/
def execSetvar (imm8 : BitVec 8) (s : State) : Result :=
  if s.locked then .next (fail .locked s)
  else if imm8.extractLsb' 2 6 ≠ 0 ∨ imm8 = 0x02#8 then .next (fail .badVal s)
  else .next (respond 0 { s with fam := if imm8.getLsbD 0 then .b else .a, sub := imm8.getLsbD 1 })

/-- The bit `FAM` (R27). -/
def Family.bit : Family → BitVec 1
  | .a => 0
  | .b => 1

/-- RDVAR (R274): `LOCKED << 8 | SUB << 1 | FAM`. -/
def execRdvar (s : State) : Result :=
  .next (respond ((BitVec.ofBool s.locked ++ 0#6 ++ BitVec.ofBool s.sub ++ s.fam.bit).setWidth 16) s)

/-- RDSTAT (R275). -/
def execRdstat (s : State) : Result := .next (respond s.status s)

/-- CLRSTAT mask16 (R276): `STATUS <- STATUS & ~mask16; ERR <- 0`. -/
def execClrstat (mask16 : BitVec 16) (s : State) : Result :=
  .next (respond 0 { s with status := s.status &&& ~~~mask16, err := 0 })

/-- RDERR (R277). -/
def execRderr (s : State) : Result := .next (respond (s.err.setWidth 16) s)

/-- RDCYCL (R278): `CYC[15:0]`. -/
def execRdcycl (s : State) : Result := .next (respond (s.cyc.extractLsb' 0 16) s)

/-- RDCYCH (R279): `CYC[31:16]`. -/
def execRdcych (s : State) : Result := .next (respond (s.cyc.extractLsb' 16 16) s)

/-- SETIRQ mask16 (R280). -/
def execSetirq (mask16 : BitVec 16) (s : State) : Result := .next (respond 0 { s with irqEn := mask16 })

/-- RDDROP (R281). -/
def execRddrop (s : State) : Result := .next (respond (s.rxDrop.setWidth 16) s)

end Sys2Proof.Machine
end

