-- ==== Sys2Proof/Machine/Dispatch.lean ====
section
/-! DEFINITION. The meaning of each command, one arm per constructor of `Instr`. -/

namespace Sys2Proof.Machine

def exec (i : Instr) (s : State) : Host.Outcome State Fault Refusal :=
  match i with
  | .nop => Sys2Proof.Machine.execNop s
  | .tick => Sys2Proof.Machine.execTick s
  | .lock => Sys2Proof.Machine.execLock s
  | .setvar imm8 => Sys2Proof.Machine.execSetvar imm8 s
  | .rdvar => Sys2Proof.Machine.execRdvar s
  | .rdstat => Sys2Proof.Machine.execRdstat s
  | .clrstat mask16 => Sys2Proof.Machine.execClrstat mask16 s
  | .rderr => Sys2Proof.Machine.execRderr s
  | .rdcycl => Sys2Proof.Machine.execRdcycl s
  | .rdcych => Sys2Proof.Machine.execRdcych s
  | .setirq mask16 => Sys2Proof.Machine.execSetirq mask16 s
  | .rddrop => Sys2Proof.Machine.execRddrop s
  | .crcInit => Sys2Proof.Machine.execCrcInit s
  | .crcFeed imm8 => Sys2Proof.Machine.execCrcFeed imm8 s
  | .crcRd => Sys2Proof.Machine.execCrcRd s
  | .crcBuf slot src k => Sys2Proof.Machine.execCrcBuf slot src k s
  | .sumInit id => Sys2Proof.Machine.execSumInit id s
  | .sumFeed imm8 => Sys2Proof.Machine.execSumFeed imm8 s
  | .sumRd => Sys2Proof.Machine.execSumRd s
  | .sumBuf slot src k => Sys2Proof.Machine.execSumBuf slot src k s
  | .cntLd slot v => Sys2Proof.Machine.execCntLd slot v s
  | .cntInc slot => Sys2Proof.Machine.execCntInc slot s
  | .cntRd slot => Sys2Proof.Machine.execCntRd slot s
  | .cntObs slot => Sys2Proof.Machine.execCntObs slot s
  | .cntPop slot => Sys2Proof.Machine.execCntPop slot s
  | .cntFlen slot => Sys2Proof.Machine.execCntFlen slot s
  | .cntSteer => Sys2Proof.Machine.execCntSteer s
  | .cntRxc slot => Sys2Proof.Machine.execCntRxc slot s
  | .bufWr slot idx byte => Sys2Proof.Machine.execBufWr slot idx byte s
  | .bufRd slot src idx => Sys2Proof.Machine.execBufRd slot src idx s
  | .bufSnap slot => Sys2Proof.Machine.execBufSnap slot s
  | .bufClr slot => Sys2Proof.Machine.execBufClr slot s
  | .frmTx slot => Sys2Proof.Machine.execFrmTx slot s
  | .cfgWr slot field value => Sys2Proof.Machine.execCfgWr slot field value s
  | .cfgRd slot field => Sys2Proof.Machine.execCfgRd slot field s

end Sys2Proof.Machine
end

