-- ==== Sys2Proof/Machine/Rx.lean ====
section
/-! DEFINITION. The inbound demultiplexer: one arrival on the RX port (43_frame_mux.md R202–R211). -/

namespace Sys2Proof.Machine

/-- The bit of a 3-bit bus mask for a bus number; bus 3 has none (R95, R203). -/
def maskHas (mask : BitVec 3) (bus : BitVec 2) : Bool := mask.getLsbD bus.toNat

/-- The slot matches the frame (R203). -/
def rxMatches (s : State) (f : RxFrame) (slot : Slot) : Bool :=
  s.tbl[slot].valid && s.tbl[slot].rxEn && s.tbl[slot].id == f.id && maskHas s.tbl[slot].rxMask f.bus

/-- The slot a frame goes to. A locked table has at most one (R251); the lowest-numbered is taken in the states no
run reaches where there are more (log entry 7). -/
def rxSlot (s : State) (f : RxFrame) : Option Slot := (List.finRange 8).find? (rxMatches s f)

/-- `RX_DROP <- min(255, RX_DROP + 1)` (R32, R204). -/
def dropCount (n : BitVec 8) : BitVec 8 := if n = 255#8 then 255#8 else n + 1

/-- The frame is dropped and counted (R204, R205). -/
def dropFrame (s : State) : State := raise .rxDrop { s with rxDrop := dropCount s.rxDrop }

/-- The payload bytes `0..len-1` written over the old contents (R207). -/
def overlay (old new : Vector Byte 8) (len : BitVec 4) : Vector Byte 8 :=
  Vector.ofFn fun j : Fin 8 => if j.val < len.toNat then new[j] else old[j]

/-- The frame is stored (R207). -/
def storeFrame (slot : Slot) (f : RxFrame) (s : State) : State :=
  { s with
    rxbuf := s.rxbuf.set slot (overlay s.rxbuf[slot] f.data f.len)
    rxcnt := s.rxcnt.set slot (s.rxcnt[slot] + 1) }

/-- `data[TBL[s].CTR_BYTE][TBL[s].CTR_LSB + 3 : TBL[s].CTR_LSB]` (R208). -/
def frameCtr (e : TblEntry) (f : RxFrame) : Counter := f.data[e.ctrByte.toFin].extractLsb' e.ctrLsb.toNat 4

/-- `LAST[s] <- v; LASTV[s] <- 1` (R208). -/
def observe (slot : Slot) (v : Counter) (s : State) : State :=
  { s with last := s.last.set slot v, lastv := s.lastv.set slot true }

/-- A counter buffered on a LONG slot; a full FIFO drops its oldest value first and raises FIFOOVF (R208). -/
def pushCtr (slot : Slot) (v : Counter) (s : State) : State :=
  if s.fifo[slot].length = s.params.fifoDepth then raise .fifoOvf (setFifo slot (s.fifo[slot].tail ++ [v]) s)
  else setFifo slot (s.fifo[slot] ++ [v]) s

/-- The frame's counter is captured (R208). -/
def captureCtr (slot : Slot) (f : RxFrame) (s : State) : State :=
  if s.tbl[slot].ctrEn then
    if s.tbl[slot].cls = .long then
      pushCtr slot (frameCtr s.tbl[slot] f) (observe slot (frameCtr s.tbl[slot] f) s)
    else observe slot (frameCtr s.tbl[slot] f) s
  else s

/-- The arrival of one frame: the first of R204, R205 and R206 that applies ends the step, else R207 and R208 (R202). -/
def demux (f : RxFrame) (s : State) : State :=
  if s.locked = false then dropFrame s
  else
    match rxSlot s f with
    | none => dropFrame s
    | some slot =>
      if f.len ≠ s.tbl[slot].len then raise .rxLen s
      else captureCtr slot f (storeFrame slot f s)

/-- One RX step: the demultiplexer, and no response (R211). -/
def receiveFrame (f : RxFrame) (s : State) : State := { demux f s with resp := none }

end Sys2Proof.Machine
end

