-- ==== Sys2Proof/Machine/Ports.lean ====
section
/-! DEFINITION. What one arrival on each input of the block does (30_encoding.md R80; 20_memory.md R66, R68;
70_reset_and_hazards.md R321), and how a command word is put on the command port. -/

namespace Sys2Proof.Machine

/-- The next arrival, and the state with the arrivals after it (log entry 1). -/
def takeInput (s : State) : Option (Input × State) :=
  match s.inputs with
  | [] => none
  | x :: rest => some (x, { s with inputs := rest })

/-- One command word: the command it decodes to, or `E_ILLEGAL` (R91, R92). -/
def runCommand (w : Word) (s : State) : Result :=
  match decode w with
  | .ok i => exec i s
  | .error _ => .next (fail .illegal s)

/-- The reset input: every state element and the outputs at their reset values; the parameters are not changed
(R320, R321), and the arrivals after it are still to come (log entry 2). -/
def applyReset (s : State) : State := { State.resetWith s.params with inputs := s.inputs }

/-- The step of one arrival. -/
def applyInput (x : Input) (s : State) : Result :=
  match x with
  | .command w => runCommand w s
  | .receive f => .next (receiveFrame f s)
  | .reset => .next (applyReset s)

/-- A command word presented as the next arrival on the command port. -/
def presentCommand (w : Word) (s : State) : State := { s with inputs := .command w :: s.inputs }

end Sys2Proof.Machine
end

