-- ==== Sys2Proof/Machine/Step.lean ====
section
/-! DEFINITION. One step of the block: the next arrival on its ports, taken as one indivisible step (00_scope.md R12;
20_memory.md R66, R68). -/

namespace Sys2Proof.Machine

/-- The block "waits for the next step on either input port" (R322): with nothing to arrive, nothing changes
(log entry 13). -/
def step (s : State) : Host.Outcome State Fault Refusal :=
  match takeInput s with
  | none => .next s
  | some (x, rest) => applyInput x rest

/-- The state with the command word of `nbits` bits `w` (the bits above them 0) presented as the next arrival on the
command port, so that the very next step runs it (log entry 1). -/
def State.withFetchWord (s : State) (nbits w : Nat) : State := presentCommand (BitVec.ofNat 32 (w % 2 ^ nbits)) s

end Sys2Proof.Machine
end

