-- ==== Sys2Proof/Safety.lean ====
section
/-! DEFINITION. The terms the claims about the block use: what every reachable state satisfies (the legal values of
10_state.md and 44_buffers_config.md), which commands only read, which errors a command can report, and what it means
for the words of one opcode to run as the rules say. -/

namespace Sys2Proof.Machine

/-! ## Legal states -/

/-- Bits 0 and 13–15 of STATUS are hardwired to 0 (R29). -/
abbrev State.StatusLegal (s : State) : Prop := s.status &&& 0xE001#16 = 0#16

/-- ERR holds 0 or a command error code 1..9 (R30, R291). -/
abbrev State.ErrLegal (s : State) : Prop := s.err.toNat ≤ 9

/-- "`SUB = 1` is legal only with `FAM = 1`" (R27). -/
abbrev State.VariantLegal (s : State) : Prop := s.sub = true → s.fam = .b

/-- The legal values of the fields of an entry that do not fill their width (R33, R235). -/
abbrev TblEntry.FieldsLegal (e : TblEntry) : Prop :=
  e.len.toNat ≤ 8 ∧ e.ctrLsb.toNat ≤ 4 ∧ e.cmdLsb.toNat + e.cmdWm1.toNat + 1 ≤ 8

/-- Every entry of the table holds legal field values. -/
abbrev State.TableLegal (s : State) : Prop := ∀ i : Slot, s.tbl[i].FieldsLegal

/-- A locked table is a valid table (R246, R272). -/
abbrev State.LockLegal (s : State) : Prop := s.locked = true → validTable s = true

/-- A FIFO holds at most `CTR_FIFO_DEPTH` values, and none on a slot that is not LONG (R38). -/
abbrev State.FifoLegal (s : State) : Prop :=
  ∀ i : Slot, s.fifo[i].length ≤ s.params.fifoDepth ∧ (s.tbl[i].cls ≠ .long → s.fifo[i] = [])

/-- Before LOCK nothing was received and nothing was emitted (R28, R187, R204). -/
abbrev State.UnlockedQuiet (s : State) : Prop :=
  s.locked = false →
    (∀ i : Slot, s.fifo[i] = [] ∧ s.lastv[i] = false ∧ s.rxcnt[i] = 0#8 ∧
      s.rxbuf[i] = Vector.replicate 8 0x00#8) ∧
    s.phase = 0#2 ∧ s.out = []

/-- "`RXBUF` bytes at index `TBL[slot].LEN` and above always read 0" (R231). -/
abbrev State.RxTailZero (s : State) : Prop :=
  ∀ (i : Slot) (j : ByteIndex), s.tbl[i].len.toNat ≤ j.val → s.rxbuf[i][j] = 0x00#8

/-- A counter is observed only on a slot that carries one, and before any capture LAST is 0 (R37, R155). -/
abbrev State.ObservedLegal (s : State) : Prop :=
  ∀ i : Slot, (s.lastv[i] = true → s.tbl[i].ctrEn = true) ∧ (s.lastv[i] = false → s.last[i] = 0#4)

/-- An emitted frame is on bus 0..2 and carries its `len` bytes, 1..8 (R7, R97, R183). -/
abbrev Frame.Legal (f : Frame) : Prop :=
  f.bus.toNat ≤ 2 ∧ 1 ≤ f.len.toNat ∧ f.len.toNat ≤ 8 ∧ f.data.length = f.len.toNat

/-- What every reachable state of the block satisfies. -/
structure State.Inv (s : State) : Prop where
  params : s.params.Legal
  status : s.StatusLegal
  err : s.ErrLegal
  variant : s.VariantLegal
  table : s.TableLegal
  lock : s.LockLegal
  fifo : s.FifoLegal
  quiet : s.UnlockedQuiet
  rxTail : s.RxTailZero
  observed : s.ObservedLegal
  out : ∀ f ∈ s.out, f.Legal

/-- Every state element and output has its reset value, the register CRC the parameter `CRC8_INIT` (R320). -/
abbrev AtReset (s : State) : Prop :=
  s.crc = s.params.crc8Init ∧ s.sum = 0x00#8 ∧ s.cyc = 0x00000000#32 ∧ s.phase = 0#2 ∧ s.fam = .a ∧ s.sub = false ∧
  s.locked = false ∧ s.status = 0x0000#16 ∧ s.err = 0#4 ∧ s.irqEn = 0x0000#16 ∧ s.rxDrop = 0#8 ∧
  (∀ i : Slot, s.tbl[i] = TblEntry.zero ∧ s.rxcnt[i] = 0#8 ∧ s.ctr[i] = 0#4 ∧ s.last[i] = 0#4 ∧
    s.lastv[i] = false ∧ s.fifo[i] = [] ∧ ∀ j : ByteIndex, s.txbuf[i][j] = 0x00#8 ∧ s.rxbuf[i][j] = 0x00#8) ∧
  s.irq = false ∧ s.resp = none ∧ s.out = []

/-! ## Ends of a command -/

/-- The state a command that fails with code `n` leaves, spelt out of R291 and R83. -/
def failed (n : Nat) (s : State) : State :=
  { s with
    status := s.status ||| BitVec.ofNat 16 (2 ^ n)
    err := BitVec.ofNat 4 n
    resp := some (BitVec.ofNat 21 (0x100000 + 0x10000 * n)) }

/-- The response of a command that succeeds with DATA `n`, spelt out of R83: E and CODE are 0. -/
def okWord (n : Nat) : Response := BitVec.ofNat 21 (n % 0x10000)

/-! ## The rows of R96: mnemonic, format, match and mask -/

/-- The rows of family SYS of R96. -/
def sysCodes : List (String × Format × Word × Word) := [
  ("NOP", .n, 0x00000000, 0xFFFFFFFF), ("TICK", .n, 0x01000000, 0xFFFFFFFF),
  ("LOCK", .n, 0x02000000, 0xFFFFFFFF), ("SETVAR", .b, 0x03000000, 0xFFFFFF00),
  ("RDVAR", .n, 0x04000000, 0xFFFFFFFF), ("RDSTAT", .n, 0x05000000, 0xFFFFFFFF),
  ("CLRSTAT", .m, 0x06000000, 0xFFFF0000), ("RDERR", .n, 0x07000000, 0xFFFFFFFF),
  ("RDCYCL", .n, 0x08000000, 0xFFFFFFFF), ("RDCYCH", .n, 0x09000000, 0xFFFFFFFF),
  ("SETIRQ", .m, 0x0A000000, 0xFFFF0000), ("RDDROP", .n, 0x0B000000, 0xFFFFFFFF)]

/-- The rows of families CRC and SUM of R96. -/
def dataCodes : List (String × Format × Word × Word) := [
  ("CRC.INIT", .n, 0x10000000, 0xFFFFFFFF), ("CRC.FEED", .b, 0x11000000, 0xFFFFFF00),
  ("CRC.RD", .n, 0x12000000, 0xFFFFFFFF), ("CRC.BUF", .sk, 0x13000000, 0xFFF8EFF0),
  ("SUM.INIT", .i, 0x20000000, 0xFFFFF800), ("SUM.FEED", .b, 0x21000000, 0xFFFFFF00),
  ("SUM.RD", .n, 0x22000000, 0xFFFFFFFF), ("SUM.BUF", .sk, 0x23000000, 0xFFF8EFF0)]

/-- The rows of families CNT, BUF, FRM and CFG of R96. -/
def slotCodes : List (String × Format × Word × Word) := [
  ("CNT.LD", .sv, 0x30000000, 0xFFF8FFF0), ("CNT.INC", .s, 0x31000000, 0xFFF8FFFF),
  ("CNT.RD", .s, 0x32000000, 0xFFF8FFFF), ("CNT.OBS", .s, 0x33000000, 0xFFF8FFFF),
  ("CNT.POP", .s, 0x34000000, 0xFFF8FFFF), ("CNT.FLEN", .s, 0x35000000, 0xFFF8FFFF),
  ("CNT.STEER", .n, 0x36000000, 0xFFFFFFFF), ("CNT.RXC", .s, 0x37000000, 0xFFF8FFFF),
  ("BUF.WR", .sib, 0x40000000, 0xFFF8F800), ("BUF.RD", .si, 0x41000000, 0xFFF8E8FF),
  ("BUF.SNAP", .s, 0x42000000, 0xFFF8FFFF), ("BUF.CLR", .s, 0x43000000, 0xFFF8FFFF),
  ("FRM.TX", .s, 0x50000000, 0xFFF8FFFF), ("CFG.WR", .cw, 0x60000000, 0xFFF80000),
  ("CFG.RD", .cr, 0x61000000, 0xFFF80FFF)]

/-! ## The words of one opcode -/

/-- The words whose FAM and FN make the byte `op`, on the command port: with no bit of the reserved mask `zeros` set
they run the command their operand fields name, and with one set they fail with E_ILLEGAL and have no other effect
(R86, R92, R96). -/
def WordsRun (op : BitVec 8) (zeros : Word) (make : Word → Instr) : Prop :=
  ∀ (w : Word) (s : State) (rest : List Input),
    w.extractLsb' 24 8 = op → s.inputs = .command w :: rest →
      (w &&& zeros = 0#32 → step s = exec (make w) { s with inputs := rest }) ∧
      (w &&& zeros ≠ 0#32 → step s = .next (failed 1 { s with inputs := rest }))

/-- The operand `slot`, w[18:16] (R84). -/
def wSlot (w : Word) : Slot := (w.extractLsb' 16 3).toFin

/-- The operand `idx`, w[10:8] (R84). -/
def wIdx (w : Word) : ByteIndex := (w.extractLsb' 8 3).toFin

/-- The operand `src`, w[12]: 0 is `TXBUF`, 1 is `RXBUF` (R84, R85). -/
def wSrc (w : Word) : BufSrc := if w.getLsbD 12 then .rx else .tx

/-! ## The table -/

/-- The entry after field number `f` is written with the value `v`, spelt out of the layout of R33. -/
def writtenEntry (e : TblEntry) (f v : Nat) : TblEntry :=
  match f with
  | 0 => { e with valid := v % 2 == 1, rxEn := v / 2 % 2 == 1, txEn := v / 4 % 2 == 1 }
  | 1 => { e with id := BitVec.ofNat 11 v }
  | 2 => { e with len := BitVec.ofNat 4 v }
  | 3 => { e with rxMask := BitVec.ofNat 3 v }
  | 4 => { e with txMask := BitVec.ofNat 3 v }
  | 5 => { e with
      kind := if v % 4 = 0 then .none else if v % 4 = 1 then .sum else if v % 4 = 2 then .crc else .table
      k := BitVec.ofNat 3 (v / 4 % 8)
      pos := BitVec.ofNat 3 (v / 32 % 8) }
  | 6 => { e with
      ctrEn := v % 2 == 1, ctrByte := BitVec.ofNat 3 (v / 2 % 8), ctrLsb := BitVec.ofNat 3 (v / 16 % 8) }
  | 7 => { e with
      cmdByte := BitVec.ofNat 3 (v % 8), cmdLsb := BitVec.ofNat 3 (v / 8 % 8)
      cmdWm1 := BitVec.ofNat 3 (v / 64 % 8) }
  | 8 => { e with cmdv := BitVec.ofNat 8 v }
  | 9 => { e with
      cls := if v % 4 = 0 then .other else if v % 4 = 1 then .steer else if v % 4 = 2 then .long else .cancel }
  | _ => e

/-! ## Frames in and out -/

/-- A slot matches a received frame (R203). -/
abbrev SlotTakes (s : State) (f : RxFrame) (i : Slot) : Prop :=
  s.tbl[i].valid = true ∧ s.tbl[i].rxEn = true ∧ s.tbl[i].id = f.id ∧
    f.bus.toNat ≤ 2 ∧ s.tbl[i].rxMask.getLsbD f.bus.toNat = true

/-- The conditions on the configuration under which `FRM.TX` may emit a slot (R187, R188). -/
abbrev TxReady (s : State) (i : Slot) : Prop :=
  s.locked = true ∧ s.tbl[i].valid = true ∧ s.tbl[i].txEn = true

/-- One payload of an entry, framed for each bus of its TXMASK in increasing order (R182, R183). -/
def framed (e : TblEntry) (d : List Byte) : List Frame :=
  (buses e.txMask).map fun b => { bus := b, id := e.id, len := e.len, data := d }

/-! ## Classes of commands -/

/-- The read commands that leave the state of the block unchanged (R67): all but CNT.POP. -/
def isPureRead : Instr → Bool
  | .nop => false
  | .tick => false
  | .lock => false
  | .setvar _ => false
  | .rdvar => true
  | .rdstat => true
  | .clrstat _ => false
  | .rderr => true
  | .rdcycl => true
  | .rdcych => true
  | .setirq _ => false
  | .rddrop => true
  | .crcInit => false
  | .crcFeed _ => false
  | .crcRd => true
  | .crcBuf _ _ _ => false
  | .sumInit _ => false
  | .sumFeed _ => false
  | .sumRd => true
  | .sumBuf _ _ _ => false
  | .cntLd _ _ => false
  | .cntInc _ => false
  | .cntRd _ => true
  | .cntObs _ => true
  | .cntPop _ => false
  | .cntFlen _ => true
  | .cntSteer => true
  | .cntRxc _ => true
  | .bufWr _ _ _ => false
  | .bufRd _ _ _ => true
  | .bufSnap _ => false
  | .bufClr _ => false
  | .frmTx _ => false
  | .cfgWr _ _ _ => false
  | .cfgRd _ field => legalField field

/-- The errors a command can report, as their codes (R293). -/
def possibleErrors : Instr → List Nat
  | .nop => [1]
  | .tick => [1]
  | .lock => [1, 2, 5]
  | .setvar _ => [1, 2, 4]
  | .rdvar => [1]
  | .rdstat => [1]
  | .clrstat _ => [1]
  | .rderr => [1]
  | .rdcycl => [1]
  | .rdcych => [1]
  | .setirq _ => [1]
  | .rddrop => [1]
  | .crcInit => [1]
  | .crcFeed _ => [1]
  | .crcRd => [1]
  | .crcBuf _ _ _ => [1]
  | .sumInit _ => [1]
  | .sumFeed _ => [1]
  | .sumRd => [1]
  | .sumBuf _ _ _ => [1, 6]
  | .cntLd _ _ => [1]
  | .cntInc _ => [1]
  | .cntRd _ => [1]
  | .cntObs _ => [1]
  | .cntPop _ => [1]
  | .cntFlen _ => [1]
  | .cntSteer => [1]
  | .cntRxc _ => [1]
  | .bufWr _ _ _ => [1]
  | .bufRd _ _ _ => [1]
  | .bufSnap _ => [1]
  | .bufClr _ => [1]
  | .frmTx _ => [1, 3, 6, 7, 8, 9]
  | .cfgWr _ _ _ => [1, 2, 4]
  | .cfgRd _ _ => [1]

end Sys2Proof.Machine
end

