-- ==== Sys2Proof/Certificates/Slice0/Obligations.lean ====
section
/-! DEFINITION. The statements about the block, from the numbered rules of spec/. -/

open Sys2Proof Sys2Proof.Machine

/-! ## Encoding (30_encoding.md) -/

/-- Decoding the word of any well-formed command gives the command back (R81, R84, R96). -/
def Obligations.EncodedCommandDecodes : Prop :=
  ∀ i : Instr, i.wellFormed = true → decode (encode i) = .ok i

/-- A word that decodes is the word of its command: no two words stand for one command, and no bit of a word is
ignored (R86, R91, R96). That format SI reserves w[11] and w[7:0], as the mask of R96 has it, is the model's reading where
R84 says otherwise of idx (log entry 15). -/
def Obligations.DecodedWordIsItsEncoding : Prop :=
  ∀ (w : Word) (i : Instr), decode w = .ok i → encode i = w

/-- R96: the 35 rows, and that a word is a row's command exactly when its masked bits match and no check of R86–R90 fails. -/
def Obligations.OpcodeMapDecides : Prop :=
  opcodeMap.map (fun r => (r.mnemonic, r.format, r.matchWord, r.maskWord)) = sysCodes ++ dataCodes ++ slotCodes ∧
  ∀ (w : Word) (row : OpRow), row ∈ opcodeMap →
    ((∃ i, decode w = .ok i ∧ i.mnemonic = row.mnemonic) ↔
      w &&& row.maskWord = row.matchWord ∧
      (row.format = .sk → (w.extractLsb' 0 4).toNat ≤ 8) ∧
      (row.format = .cw ∨ row.format = .cr → (w.extractLsb' 12 4).toNat ≤ 9))

/-- R87–R90: a reserved family, a function its family does not list, a byte count above 8 and a field number above 9
each fail with E_ILLEGAL. -/
def Obligations.ReservedWordsAreIllegal : Prop :=
  ∀ (w : Word) (s : State) (rest : List Input), s.inputs = .command w :: rest →
    (let fam := (w.extractLsb' 28 4).toNat
     let fn := (w.extractLsb' 24 4).toNat
     let k := (w.extractLsb' 0 4).toNat
     let field := (w.extractLsb' 12 4).toNat
     7 ≤ fam ∨
     (fam = 0 ∧ 12 ≤ fn) ∨ (fam = 1 ∧ 4 ≤ fn) ∨ (fam = 2 ∧ 4 ≤ fn) ∨ (fam = 3 ∧ 8 ≤ fn) ∨
     (fam = 4 ∧ 4 ≤ fn) ∨ (fam = 5 ∧ 1 ≤ fn) ∨ (fam = 6 ∧ 2 ≤ fn) ∨
     ((fam = 1 ∨ fam = 2) ∧ fn = 3 ∧ 9 ≤ k) ∨
     (fam = 6 ∧ fn ≤ 1 ∧ 10 ≤ field)) →
    step s = .next (failed 1 { s with inputs := rest })

/-- The example words of R93, each written out there, decode to the commands they stand for. -/
def Obligations.WrittenWordsDecode : Prop :=
  decode 0x00000000#32 = .ok .nop ∧
  decode 0x01000000#32 = .ok .tick ∧
  decode 0x03000001#32 = .ok (.setvar 1) ∧
  decode 0x11000031#32 = .ok (.crcFeed 0x31) ∧
  decode 0x20000488#32 = .ok (.sumInit 0x488) ∧
  decode 0x0600FFFF#32 = .ok (.clrstat 0xFFFF) ∧
  decode 0x50000000#32 = .ok (.frmTx 0) ∧
  decode 0x30020005#32 = .ok (.cntLd 2 5) ∧
  decode 0x13021007#32 = .ok (.crcBuf 2 .rx 7) ∧
  decode 0x40000134#32 = .ok (.bufWr 0 1 0x34) ∧
  decode 0x41021600#32 = .ok (.bufRd 2 .rx 6) ∧
  decode 0x60001488#32 = .ok (.cfgWr 0 1 0x488) ∧
  decode 0x61015000#32 = .ok (.cfgRd 1 5)

/-! ## Steps (20_memory.md, 60_exceptions.md) -/

/-- A command word that decodes is run by the step that consumes it, which moves on to the arrivals after it and does
nothing else around it; a word that does not decode fails with E_ILLEGAL; with no arrival nothing changes (the last
clause is the model's choice, log entry 13). -/
def Obligations.StepRunsDecodedCommand : Prop :=
  (∀ (w : Word) (i : Instr) (s : State) (rest : List Input),
    s.inputs = .command w :: rest → decode w = .ok i → i.wellFormed = true →
      step s = exec i { s with inputs := rest }) ∧
  (∀ (w : Word) (e : DecodeError) (s : State) (rest : List Input),
    s.inputs = .command w :: rest → decode w = .error e →
      step s = .next (failed 1 { s with inputs := rest })) ∧
  (∀ s : State, s.inputs = [] → step s = .next s)

/-- Every step of the block answers a next state: no command, reception or reset halts it. That no step stops is the
model's inference (log entry 9, DEDUCED), and that a step with no arrival answers the same state, where the spec has no
step at all, is the model's choice (log entry 13, DESIGN CHOICE). -/
def Obligations.BlockNeverHalts : Prop :=
  ∀ s : State, ∃ t, step s = .next t

/-- R291, with R30 and R83: a step that takes a command word ends with one response. Either the command succeeds
(E = 0, CODE = 0) and leaves ERR alone unless it is CLRSTAT, or it fails with a code 1..9, sets STATUS[code], ERR and
the response, and changes nothing else. -/
def Obligations.FailingCommandOnlyReports : Prop :=
  ∀ (w : Word) (s : State) (rest : List Input), s.inputs = .command w :: rest →
    ∃ t, step s = .next t ∧
      ((∃ d : Nat, d < 0x10000 ∧ t.resp = some (BitVec.ofNat 21 d) ∧
          (t.err = s.err ∨ ∃ m, decode w = .ok (.clrstat m))) ∨
        (∃ n : Nat, 1 ≤ n ∧ n ≤ 9 ∧
          t = { s with
                inputs := rest
                status := s.status ||| BitVec.ofNat 16 (2 ^ n)
                err := BitVec.ofNat 4 n
                resp := some (BitVec.ofNat 21 (0x100000 + n * 0x10000)) }))

/-- A command reports only the errors R293 lists for it. -/
def Obligations.ReportedErrorsAreListed : Prop :=
  ∀ (i : Instr) (s : State) (n : Nat), 1 ≤ n → n ≤ 9 → exec i s = .next (failed n s) → n ∈ possibleErrors i

/-! ## SYS (45_system.md) -/

/-- R274, R275, R277, R278, R279, R281: the words and the whole effect of the SYS read commands; what
STATUS bits can read, what reset and CLRSTAT leave to read, and that only reset clears the dropped-frame count. -/
def Obligations.SysReadCommands : Prop :=
  WordsRun 0x04 0x00FFFFFF (fun _ => .rdvar) ∧
  WordsRun 0x05 0x00FFFFFF (fun _ => .rdstat) ∧
  WordsRun 0x07 0x00FFFFFF (fun _ => .rderr) ∧
  WordsRun 0x08 0x00FFFFFF (fun _ => .rdcycl) ∧
  WordsRun 0x09 0x00FFFFFF (fun _ => .rdcych) ∧
  WordsRun 0x0B 0x00FFFFFF (fun _ => .rddrop) ∧
  ∀ s : State,
    exec .rdvar s = .next { s with
      resp := some (okWord (256 * s.locked.toNat + 2 * s.sub.toNat + if s.fam = .b then 1 else 0)) } ∧
    exec .rdstat s = .next { s with resp := some (okWord s.status.toNat) } ∧
    exec .rderr s = .next { s with resp := some (okWord s.err.toNat) } ∧
    exec .rdcycl s = .next { s with resp := some (okWord (s.cyc.toNat % 0x10000)) } ∧
    exec .rdcych s = .next { s with resp := some (okWord (s.cyc.toNat / 0x10000)) } ∧
    exec .rddrop s = .next { s with resp := some (okWord s.rxDrop.toNat) } ∧
    (s.Inv → s.status.getLsbD 0 = false ∧ s.status.toNat < 0x2000) ∧
    exec .rdvar State.reset = .next { State.reset with resp := some (okWord 0) } ∧
    exec .rderr State.reset = .next { State.reset with resp := some (okWord 0) } ∧
    (∀ (m : BitVec 16) (t : State), exec (.clrstat m) s = .next t →
      exec .rderr t = .next { t with resp := some (okWord 0) }) ∧
    (∀ (t : State) (x : Input) (rest : List Input), s.inputs = x :: rest → x ≠ .reset → step s = .next t →
      s.rxDrop.toNat ≤ t.rxDrop.toNat)

/-- R271, and the effect of NOP (R270): the words and the whole effect of NOP and TICK. -/
def Obligations.NopAndTick : Prop :=
  WordsRun 0x00 0x00FFFFFF (fun _ => .nop) ∧
  WordsRun 0x01 0x00FFFFFF (fun _ => .tick) ∧
  ∀ s : State,
    exec .nop s = .next { s with resp := some (okWord 0) } ∧
    exec .tick s = .next { s with
      cyc := BitVec.ofNat 32 ((s.cyc.toNat + 1) % 2 ^ 32), phase := 0#2, resp := some (okWord 0) }

/-- R276, R280: the words and the whole effect of CLRSTAT and SETIRQ. -/
def Obligations.StatusAndInterruptCommands : Prop :=
  WordsRun 0x06 0x00FF0000 (fun w => .clrstat (w.extractLsb' 0 16)) ∧
  WordsRun 0x0A 0x00FF0000 (fun w => .setirq (w.extractLsb' 0 16)) ∧
  ∀ (m : BitVec 16) (s : State),
    exec (.clrstat m) s = .next { s with
      status := s.status &&& ~~~m, err := 0#4, resp := some (okWord 0) } ∧
    exec (.setirq m) s = .next { s with irqEn := m, resp := some (okWord 0) }

/-- R273: the words and the whole effect of SETVAR. -/
def Obligations.SetvarCommand : Prop :=
  WordsRun 0x03 0x00FFFF00 (fun w => .setvar (w.extractLsb' 0 8)) ∧
  ∀ (v : BitVec 8) (s : State),
    (s.locked = true → exec (.setvar v) s = .next (failed 2 s)) ∧
    (s.locked = false → v.toNat ≠ 0 → v.toNat ≠ 1 → v.toNat ≠ 3 → exec (.setvar v) s = .next (failed 4 s)) ∧
    (s.locked = false → v.toNat = 0 →
      exec (.setvar v) s = .next { s with fam := .a, sub := false, resp := some (okWord 0) }) ∧
    (s.locked = false → v.toNat = 1 →
      exec (.setvar v) s = .next { s with fam := .b, sub := false, resp := some (okWord 0) }) ∧
    (s.locked = false → v.toNat = 3 →
      exec (.setvar v) s = .next { s with fam := .b, sub := true, resp := some (okWord 0) })

/-- R272: the words and the whole effect of LOCK; an empty table locks, and only reset unlocks. -/
def Obligations.LockCommand : Prop :=
  WordsRun 0x02 0x00FFFFFF (fun _ => .lock) ∧
  ∀ s : State,
    (s.locked = true → exec .lock s = .next (failed 2 s)) ∧
    (s.locked = false → validTable s = false → exec .lock s = .next (failed 5 s)) ∧
    (s.locked = false → validTable s = true →
      exec .lock s = .next { s with locked := true, resp := some (okWord 0) }) ∧
    ((∀ i : Slot, s.tbl[i].valid = false) → validTable s = true) ∧
    (∀ (t : State) (x : Input) (rest : List Input), s.locked = true → s.inputs = x :: rest → x ≠ .reset →
      step s = .next t → t.locked = true)

/-! ## The lock and the table (44_buffers_config.md) -/

/-- R247–R251: what LOCK validates, spelt out from the rules. -/
def Obligations.ValidTableMeans : Prop :=
  ∀ s : State, validTable s = true ↔
    (∀ i : Slot, s.tbl[i].valid = true →
      let e := s.tbl[i]
      let len := e.len.toNat
      let covered := e.kind = .sum ∨ e.kind = .crc
      (1 ≤ len ∧ len ≤ 8) ∧
      (e.txEn = true → e.txMask ≠ 0#3) ∧ (e.rxEn = true → e.rxMask ≠ 0#3) ∧
      (covered → e.k.toNat ≤ e.pos.toNat ∧ e.pos.toNat < len) ∧
      (e.kind = .table → e.pos.toNat < len) ∧
      (e.ctrEn = true → e.ctrByte.toNat < len ∧ (covered → e.ctrByte.toNat < e.k.toNat) ∧
        (e.kind = .table → e.ctrByte ≠ e.pos)) ∧
      (e.cls ≠ .other → e.txEn = true ∧ e.ctrEn = true) ∧
      (e.cls = .long ∨ e.cls = .cancel → e.rxEn = true) ∧
      (e.cls = .cancel → e.cmdByte.toNat < len ∧ e.cmdv.toNat < 2 ^ (e.cmdWm1.toNat + 1) ∧
        (e.kind ≠ .none → e.cmdByte ≠ e.pos) ∧
        (e.cmdByte = e.ctrByte →
          ∀ b : Nat, ¬ ((e.cmdLsb.toNat ≤ b ∧ b ≤ e.cmdLsb.toNat + e.cmdWm1.toNat) ∧
            (e.ctrLsb.toNat ≤ b ∧ b ≤ e.ctrLsb.toNat + 3)))) ∧
      (e.kind = .table ↔ (e.cls = .cancel ∧ s.fam = .a))) ∧
    (∀ i j : Slot, i ≠ j → s.tbl[i].valid = true → s.tbl[j].valid = true →
      ¬ (s.tbl[i].rxEn = true ∧ s.tbl[j].rxEn = true ∧ s.tbl[i].id = s.tbl[j].id ∧
        s.tbl[i].rxMask &&& s.tbl[j].rxMask ≠ 0#3))

/-- Once locked, no command and no reception unlocks the block or changes the table or the variant; only reset does
(R28, R295, R321). -/
def Obligations.LockedConfigurationIsFrozen : Prop :=
  ∀ (s t : State) (x : Input) (rest : List Input),
    s.inputs = x :: rest → x ≠ .reset → s.locked = true → step s = .next t →
      t.locked = true ∧ t.tbl = s.tbl ∧ t.fam = s.fam ∧ t.sub = s.sub

/-- Only a LOCK of a valid table locks the block (R28, R246). -/
def Obligations.OnlyLockLocks : Prop :=
  ∀ (s t : State), s.locked = false → step s = .next t → t.locked = true →
    (∃ rest, s.inputs = .command 0x02000000#32 :: rest) ∧ validTable s = true

/-- R234, R235: the words and the whole effect of CFG.WR, with the legal values and the layout of every field (R33). -/
def Obligations.CfgWriteCommand : Prop :=
  WordsRun 0x60 0x00F80000 (fun w => .cfgWr (wSlot w) (w.extractLsb' 12 4) (w.extractLsb' 0 12)) ∧
  ∀ (slot : Slot) (field : BitVec 4) (value : BitVec 12) (s : State),
    let f := field.toNat
    let v := value.toNat
    let legal := (f = 0 ∧ v ≤ 7) ∨ (f = 1 ∧ v ≤ 0x7FF) ∨ (f = 2 ∧ 1 ≤ v ∧ v ≤ 8) ∨ (f = 3 ∧ v ≤ 7) ∨
      (f = 4 ∧ v ≤ 7) ∨ (f = 5 ∧ v ≤ 0xFF) ∨ (f = 6 ∧ v ≤ 0x7F ∧ v / 16 % 8 ≤ 4) ∨
      (f = 7 ∧ v ≤ 0x1FF ∧ v / 8 % 8 + v / 64 % 8 + 1 ≤ 8) ∨ (f = 8 ∧ v ≤ 0xFF) ∨ (f = 9 ∧ v ≤ 3)
    (9 < f → exec (.cfgWr slot field value) s = .next (failed 1 s)) ∧
    (f ≤ 9 → s.locked = true → exec (.cfgWr slot field value) s = .next (failed 2 s)) ∧
    (f ≤ 9 → s.locked = false → ¬ legal → exec (.cfgWr slot field value) s = .next (failed 4 s)) ∧
    (s.locked = false → legal →
      exec (.cfgWr slot field value) s = .next { s with
        tbl := s.tbl.set slot (writtenEntry s.tbl[slot] f v), resp := some (okWord 0) })

/-- R236: the words and the whole effect of CFG.RD, with the layout of every field (R33); a field reads back
the last value written, or 0 after reset. -/
def Obligations.CfgReadCommand : Prop :=
  WordsRun 0x61 0x00F80FFF (fun w => .cfgRd (wSlot w) (w.extractLsb' 12 4)) ∧
  (∀ (slot : Slot) (field : BitVec 4) (s : State), 9 < field.toNat →
    exec (.cfgRd slot field) s = .next (failed 1 s)) ∧
  ∀ (slot : Slot) (s : State),
    let e := s.tbl[slot]
    let reads := fun (f n : Nat) =>
      exec (.cfgRd slot (BitVec.ofNat 4 f)) s = .next { s with resp := some (okWord n) }
    reads 0 (e.valid.toNat + 2 * e.rxEn.toNat + 4 * e.txEn.toNat) ∧
    reads 1 e.id.toNat ∧
    reads 2 e.len.toNat ∧
    reads 3 e.rxMask.toNat ∧
    reads 4 e.txMask.toNat ∧
    reads 5 ((match e.kind with | .none => 0 | .sum => 1 | .crc => 2 | .table => 3) +
      4 * e.k.toNat + 32 * e.pos.toNat) ∧
    reads 6 (e.ctrEn.toNat + 2 * e.ctrByte.toNat + 16 * e.ctrLsb.toNat) ∧
    reads 7 (e.cmdByte.toNat + 8 * e.cmdLsb.toNat + 64 * e.cmdWm1.toNat) ∧
    reads 8 e.cmdv.toNat ∧
    reads 9 (match e.cls with | .other => 0 | .steer => 1 | .long => 2 | .cancel => 3) ∧
    (∀ (field : BitVec 4) (value : BitVec 12), s.locked = false → legalValue field value = true →
      ∃ t u, exec (.cfgWr slot field value) s = .next t ∧ exec (.cfgRd slot field) t = .next u ∧
        u = { t with resp := some (okWord value.toNat) }) ∧
    (∀ field : BitVec 4, field.toNat ≤ 9 →
      exec (.cfgRd slot field) State.reset = .next { State.reset with resp := some (okWord 0) })

/-- A field read back returns the last legal value written, and writing one field leaves the others (R234, R236). -/
def Obligations.CfgReadsBackWhatWasWritten : Prop :=
  ∀ (e : TblEntry) (f : BitVec 4) (v : BitVec 12), legalValue f v = true →
    (e.writeField f v).pack f = v.setWidth 16 ∧
    ∀ g : BitVec 4, g ≠ f → (e.writeField f v).pack g = e.pack g

/-! ## CRC (40_crc.md) -/

/-- R113–R116: the words and the whole effect of the CRC commands, and what CRC.RD reads right after CRC.INIT and after
reset under the default parameters. -/
def Obligations.CrcCommands : Prop :=
  WordsRun 0x10 0x00FFFFFF (fun _ => .crcInit) ∧
  WordsRun 0x11 0x00FFFF00 (fun w => .crcFeed (w.extractLsb' 0 8)) ∧
  WordsRun 0x12 0x00FFFFFF (fun _ => .crcRd) ∧
  WordsRun 0x13 0x00F8EFF0 (fun w => .crcBuf (wSlot w) (wSrc w) (w.extractLsb' 0 4)) ∧
  ∀ (s : State) (b : Byte) (slot : Slot) (k : BitVec 4),
    exec .crcInit s = .next { s with crc := s.params.crc8Init, resp := some (okWord 0) } ∧
    exec (.crcFeed b) s = .next { s with
      crc := crc8Step s.crc b, resp := some (okWord (crc8Step s.crc b ^^^ 0xFF#8).toNat) } ∧
    exec .crcRd s = .next { s with resp := some (okWord (s.crc ^^^ 0xFF#8).toNat) } ∧
    (8 < k.toNat → ∀ src, exec (.crcBuf slot src k) s = .next (failed 1 s)) ∧
    (k.toNat ≤ 8 →
      exec (.crcBuf slot .tx k) s = .next { s with
        crc := crc8 s.params.crc8Init (s.txbuf[slot].toList.take k.toNat) ^^^ 0xFF#8
        resp := some (okWord (crc8 s.params.crc8Init (s.txbuf[slot].toList.take k.toNat)).toNat) } ∧
      exec (.crcBuf slot .rx k) s = .next { s with
        crc := crc8 s.params.crc8Init (s.rxbuf[slot].toList.take k.toNat) ^^^ 0xFF#8
        resp := some (okWord (crc8 s.params.crc8Init (s.rxbuf[slot].toList.take k.toNat)).toNat) }) ∧
    (∀ t : State, exec .crcInit s = .next t →
      exec .crcRd t = .next { t with resp := some (okWord (s.params.crc8Init ^^^ 0xFF#8).toNat) }) ∧
    exec .crcRd State.reset = .next { State.reset with resp := some (okWord 0) }

/-- One CRC step divides by the generator polynomial 0x11D: the register after it differs from the 8 bits put in, times
x^8, by a multiple of the polynomial (R110, R112). -/
def Obligations.CrcStepDividesByPolynomial : Prop :=
  ∀ r b : Byte, ∃ q : Byte,
    (List.range 8).foldl (fun acc i => if q.getLsbD i then acc ^^^ (0x11D#16 <<< i) else acc)
      ((r ^^^ b).setWidth 16 <<< 8) = (crc8Step r b).setWidth 16

/-- After CRC.INIT, a sequence of CRC.FEED words leaves the CRC of the bytes fed, in the register and in the last
response: the incremental engine computes the pure function (R111, R114, R2). -/
def Obligations.IncrementalCrcIsPureCrc : Prop :=
  ∀ (s : State) (d : List Byte),
    s.inputs = .command 0x10000000#32 :: d.map (fun b => .command (0x11000000#32 + b.setWidth 32)) →
    Host.Core.run Sys2Proof.core (d.length + 1) s = .next { s with
      crc := crc8 s.params.crc8Init d ^^^ 0xFF#8
      resp := some (okWord (if d = [] then 0 else (crc8 s.params.crc8Init d).toNat))
      inputs := [] }

/-- R118: the residue of any byte sequence followed by its CRC, under any initial value. -/
def Obligations.CrcResidue : Prop :=
  ∀ (init : Byte) (d : List Byte),
    crcFeed init (d ++ [crc8 init d]) = 0xC4#8 ∧ crc8 init (d ++ [crc8 init d]) = 0x3B#8

/-- The check values of R117, for the ASCII bytes of 123456789. -/
def Obligations.CrcCheckValues : Prop :=
  crc8 0xFF#8 [0x31, 0x32, 0x33, 0x34, 0x35, 0x36, 0x37, 0x38, 0x39] = 0x4B#8 ∧
  crc8 0x00#8 [0x31, 0x32, 0x33, 0x34, 0x35, 0x36, 0x37, 0x38, 0x39] = 0xC8#8

/-! ## SUM (41_checksum.md) -/

/-- R133–R136: the words and the whole effect of the SUM commands, and what SUM.RD reads after reset. -/
def Obligations.SumCommands : Prop :=
  WordsRun 0x20 0x00FFF800 (fun w => .sumInit (w.extractLsb' 0 11)) ∧
  WordsRun 0x21 0x00FFFF00 (fun w => .sumFeed (w.extractLsb' 0 8)) ∧
  WordsRun 0x22 0x00FFFFFF (fun _ => .sumRd) ∧
  WordsRun 0x23 0x00F8EFF0 (fun w => .sumBuf (wSlot w) (wSrc w) (w.extractLsb' 0 4)) ∧
  ∀ (s : State) (id : BitVec 11) (b : Byte) (slot : Slot) (k : BitVec 4),
    exec (.sumInit id) s = .next { s with sum := key id, resp := some (okWord (key id).toNat) } ∧
    exec (.sumFeed b) s = .next { s with
      sum := BitVec.ofNat 8 ((s.sum.toNat + b.toNat) % 256)
      resp := some (okWord ((s.sum.toNat + b.toNat) % 256)) } ∧
    exec .sumRd s = .next { s with resp := some (okWord s.sum.toNat) } ∧
    (8 < k.toNat → ∀ src, exec (.sumBuf slot src k) s = .next (failed 1 s)) ∧
    (k.toNat ≤ 8 → s.tbl[slot].valid = false → ∀ src, exec (.sumBuf slot src k) s = .next (failed 6 s)) ∧
    (k.toNat ≤ 8 → s.tbl[slot].valid = true →
      exec (.sumBuf slot .tx k) s = .next { s with
        sum := sum8 s.tbl[slot].id (s.txbuf[slot].toList.take k.toNat)
        resp := some (okWord (sum8 s.tbl[slot].id (s.txbuf[slot].toList.take k.toNat)).toNat) } ∧
      exec (.sumBuf slot .rx k) s = .next { s with
        sum := sum8 s.tbl[slot].id (s.rxbuf[slot].toList.take k.toNat)
        resp := some (okWord (sum8 s.tbl[slot].id (s.rxbuf[slot].toList.take k.toNat)).toNat) }) ∧
    exec .sumRd State.reset = .next { State.reset with resp := some (okWord 0) }

/-- R130, R131: the key and the checksum are sums modulo 256. -/
def Obligations.ChecksumIsModularSum : Prop :=
  ∀ (id : BitVec 11) (d : List Byte),
    (key id).toNat = (id.toNat % 256 + id.toNat / 256) % 256 ∧
    (sum8 id d).toNat = ((key id).toNat + (d.map BitVec.toNat).sum) % 256

/-- R138: the checksum ignores the order of the bytes and distinguishes ids only by their key. -/
def Obligations.ChecksumIgnoresOrder : Prop :=
  (∀ (id : BitVec 11) (d d' : List Byte), d.Perm d' → sum8 id d = sum8 id d') ∧
  (∀ (id id' : BitVec 11) (d : List Byte), key id = key id' → sum8 id d = sum8 id' d) ∧
  key 0x100#11 = 0x01#8 ∧ key 0x001#11 = 0x01#8

/-! ## CNT (42_counter.md) -/

/-- R152–R154: the words and the whole effect of the own-counter commands; an own counter reaches frames of class
OTHER only. -/
def Obligations.OwnCounterCommands : Prop :=
  WordsRun 0x30 0x00F8FFF0 (fun w => .cntLd (wSlot w) (w.extractLsb' 0 4)) ∧
  WordsRun 0x31 0x00F8FFFF (fun w => .cntInc (wSlot w)) ∧
  WordsRun 0x32 0x00F8FFFF (fun w => .cntRd (wSlot w)) ∧
  (∀ (s : State) (slot : Slot) (v : BitVec 4),
    exec (.cntLd slot v) s = .next { s with ctr := s.ctr.set slot v, resp := some (okWord 0) } ∧
    exec (.cntInc slot) s = .next { s with
      ctr := s.ctr.set slot (BitVec.ofNat 4 ((s.ctr[slot].toNat + 1) % 16))
      resp := some (okWord ((s.ctr[slot].toNat + 1) % 16)) } ∧
    exec (.cntRd slot) s = .next { s with resp := some (okWord s.ctr[slot].toNat) } ∧
    exec (.cntRd slot) State.reset = .next { State.reset with resp := some (okWord 0) }) ∧
  ∀ (s : State) (slot : Slot) (c : Vector Counter 8), s.tbl[slot].cls ≠ .other →
    txFrames { s with ctr := c } slot = txFrames s slot

/-- R155–R159: the words and the whole effect of the commands on observed counters, the steering counter and the
arrival count, and that a stored frame advances the arrival count modulo 256. -/
def Obligations.ObservedCounterCommands : Prop :=
  WordsRun 0x33 0x00F8FFFF (fun w => .cntObs (wSlot w)) ∧
  WordsRun 0x34 0x00F8FFFF (fun w => .cntPop (wSlot w)) ∧
  WordsRun 0x35 0x00F8FFFF (fun w => .cntFlen (wSlot w)) ∧
  WordsRun 0x36 0x00FFFFFF (fun _ => .cntSteer) ∧
  WordsRun 0x37 0x00F8FFFF (fun w => .cntRxc (wSlot w)) ∧
  ∀ (s : State) (slot : Slot),
    exec (.cntObs slot) s = .next { s with
      resp := some (okWord (16 * s.lastv[slot].toNat + s.last[slot].toNat)) } ∧
    (s.Inv → s.lastv[slot] = false → exec (.cntObs slot) s = .next { s with resp := some (okWord 0) }) ∧
    (s.fifo[slot] = [] → exec (.cntPop slot) s = .next { s with resp := some (okWord 0) }) ∧
    (∀ (v : Counter) (q : List Counter), s.fifo[slot] = v :: q →
      exec (.cntPop slot) s = .next { s with
        fifo := s.fifo.set slot q, resp := some (okWord (16 + v.toNat)) }) ∧
    exec (.cntFlen slot) s = .next { s with resp := some (okWord s.fifo[slot].length) } ∧
    (s.Inv → s.fifo[slot].length ≤ s.params.fifoDepth ∧
      (s.tbl[slot].cls ≠ .long → s.fifo[slot].length = 0)) ∧
    exec .cntSteer s = .next { s with resp := some (okWord (s.cyc.toNat / 2 % 16)) } ∧
    exec (.cntRxc slot) s = .next { s with resp := some (okWord s.rxcnt[slot].toNat) } ∧
    ∀ f : RxFrame, (storeFrame slot f s).rxcnt[slot] = BitVec.ofNat 8 ((s.rxcnt[slot].toNat + 1) % 256)

/-- R151: the steering counter is CYC div 2 mod 16, and advances by 1 modulo 16 from each even cycle to the next, the
wrap of CYC included. -/
def Obligations.SteeringCounterAdvances : Prop :=
  ∀ c : BitVec 32,
    (steerCtr c).toNat = c.toNat / 2 % 16 ∧
    (c.toNat % 2 = 0 → steerCtr (c + 2) = steerCtr c + 1)

/-! ## BUF (44_buffers_config.md) -/

/-- R230–R233: the words and the whole effect of the buffer commands, and every byte of the two buffers after each. -/
def Obligations.BufferCommands : Prop :=
  WordsRun 0x40 0x00F8F800 (fun w => .bufWr (wSlot w) (wIdx w) (w.extractLsb' 0 8)) ∧
  WordsRun 0x41 0x00F8E8FF (fun w => .bufRd (wSlot w) (wSrc w) (wIdx w)) ∧
  WordsRun 0x42 0x00F8FFFF (fun w => .bufSnap (wSlot w)) ∧
  WordsRun 0x43 0x00F8FFFF (fun w => .bufClr (wSlot w)) ∧
  ∀ (s : State) (slot : Slot) (idx : ByteIndex) (b : Byte),
    exec (.bufRd slot .tx idx) s = .next { s with resp := some (okWord s.txbuf[slot][idx].toNat) } ∧
    exec (.bufRd slot .rx idx) s = .next { s with resp := some (okWord s.rxbuf[slot][idx].toNat) } ∧
    (s.Inv → s.tbl[slot].len.toNat ≤ idx.val →
      exec (.bufRd slot .rx idx) s = .next { s with resp := some (okWord 0) }) ∧
    (∃ t, exec (.bufWr slot idx b) s = .next t ∧
      t = { s with txbuf := t.txbuf, resp := some (okWord 0) } ∧
      ∀ (i : Slot) (j : ByteIndex), t.txbuf[i][j] = if i = slot ∧ j = idx then b else s.txbuf[i][j]) ∧
    (∃ t, exec (.bufSnap slot) s = .next t ∧
      t = { s with txbuf := t.txbuf, resp := some (okWord 0) } ∧
      ∀ (i : Slot) (j : ByteIndex), t.txbuf[i][j] = if i = slot then s.rxbuf[i][j] else s.txbuf[i][j]) ∧
    exec (.bufSnap slot) State.reset = .next { State.reset with resp := some (okWord 0) } ∧
    (∃ t, exec (.bufClr slot) s = .next t ∧
      t = { s with txbuf := t.txbuf, resp := some (okWord 0) } ∧
      ∀ (i : Slot) (j : ByteIndex), t.txbuf[i][j] = if i = slot then 0x00#8 else s.txbuf[i][j])

/-! ## FRM.TX (43_frame_mux.md) -/

/-- R181: `setfield` writes the low `w` bits of `x` into bits lsb+w-1..lsb of byte `j` and leaves every other bit. -/
def Obligations.SetFieldWritesOnlyItsBits : Prop :=
  ∀ (d : List Byte) (j lsb w : Nat) (x : Byte) (i b : Nat) (hi : i < d.length), b < 8 →
    ∃ h : i < (setField d j lsb w x).length,
      (setField d j lsb w x)[i].getLsbD b =
        if i = j ∧ lsb ≤ b ∧ b < lsb + w then x.getLsbD (b - lsb) else d[i].getLsbD b

/-- R182: the bus list holds the buses 0..2 of the mask in increasing order. -/
def Obligations.BusListIsTheMask : Prop :=
  ∀ mask : BitVec 3,
    (∀ b : BitVec 2, b ∈ buses mask ↔ b.toNat ≤ 2 ∧ mask.getLsbD b.toNat = true) ∧
    (buses mask).Pairwise (fun a b => a.toNat < b.toNat)

/-- Every bit of a built payload but those of the authentication byte (R184): the counter nibble, the command field,
and the template everywhere else. -/
def Obligations.BuiltPayloadBits : Prop :=
  ∀ (s : State) (slot : Slot) (v : Counter) (sel : CmdSel) (p : Fin 2) (j : ByteIndex) (b : Nat),
    let e := s.tbl[slot]
    e.len.toNat ≤ 8 → j.val < e.len.toNat → b < 8 → (e.kind ≠ .none → j.val ≠ e.pos.toNat) →
    (build s slot v sel p).length = e.len.toNat ∧
    ((build s slot v sel p)[j.val]?).map (·.getLsbD b) = some (
      if e.ctrEn = true ∧ j.val = e.ctrByte.toNat ∧ e.ctrLsb.toNat ≤ b ∧ b < e.ctrLsb.toNat + 4 then
        v.getLsbD (b - e.ctrLsb.toNat)
      else if sel ≠ .none ∧ j.val = e.cmdByte.toNat ∧ e.cmdLsb.toNat ≤ b ∧
          b < e.cmdLsb.toNat + (e.cmdWm1.toNat + 1) then
        (sel = .active && e.cmdv.getLsbD (b - e.cmdLsb.toNat))
      else s.txbuf[slot][j].getLsbD b)

/-- The authentication byte of a built payload (R185), for an entry whose authentication byte follows the bytes it
covers (R248): the checksum, the CRC or the table value of the payload as built. -/
def Obligations.BuiltPayloadAuthentication : Prop :=
  ∀ (s : State) (slot : Slot) (v : Counter) (sel : CmdSel) (p : Fin 2),
    let e := s.tbl[slot]
    let d := build s slot v sel p
    e.len.toNat ≤ 8 → e.pos.toNat < e.len.toNat →
    (e.kind = .sum → e.k.toNat ≤ e.pos.toNat → d[e.pos.toNat]? = some (sum8 e.id (d.take e.k.toNat))) ∧
    (e.kind = .crc → e.k.toNat ≤ e.pos.toNat →
      d[e.pos.toNat]? = some (crc8 s.params.crc8Init (d.take e.k.toNat))) ∧
    (e.kind = .table → d[e.pos.toNat]? = some s.params.authTable[p][v.toFin])

/-- R187–R189, R195, and the order of R186: the words of FRM.TX and its failures, each when no earlier check fails. -/
def Obligations.FrmTxFailures : Prop :=
  WordsRun 0x50 0x00F8FFFF (fun w => .frmTx (wSlot w)) ∧
  ∀ (s : State) (slot : Slot),
    let e := s.tbl[slot]
    let rank : SlotClass → Nat := fun c => match c with | .other => 0 | .steer => 1 | .long => 2 | .cancel => 3
    let inOrder := e.cls = .other ∨ s.phase.toNat ≤ rank e.cls
    (s.locked = false → exec (.frmTx slot) s = .next (failed 3 s)) ∧
    (s.locked = true → e.valid = false ∨ e.txEn = false → exec (.frmTx slot) s = .next (failed 6 s)) ∧
    (TxReady s slot → ¬ inOrder → exec (.frmTx slot) s = .next (failed 7 s)) ∧
    (TxReady s slot → inOrder → e.cls = .steer → s.cyc.toNat % 2 = 1 →
      exec (.frmTx slot) s = .next (failed 8 s)) ∧
    (TxReady s slot → inOrder → e.cls = .long → s.fam = .a → s.fifo[slot] = [] →
      exec (.frmTx slot) s = .next (failed 9 s)) ∧
    (TxReady s slot → inOrder → e.cls = .cancel → s.lastv[slot] = false →
      exec (.frmTx slot) s = .next (failed 9 s))

/-- R192, R193: the whole effect of FRM.TX on a slot of class OTHER and on one of class STEER. -/
def Obligations.FrmTxOtherAndSteer : Prop :=
  ∀ (s : State) (slot : Slot), TxReady s slot →
    let e := s.tbl[slot]
    (e.cls = .other →
      exec (.frmTx slot) s = .next { s with
        ctr := if e.ctrEn then s.ctr.set slot (s.ctr[slot] + 1) else s.ctr
        out := s.out ++ framed e (build s slot s.ctr[slot] .none 0)
        resp := some (okWord (buses e.txMask).length) }) ∧
    (e.cls = .steer → s.phase.toNat ≤ 1 → s.cyc.toNat % 2 = 0 →
      exec (.frmTx slot) s = .next { s with
        phase := 1#2
        out := s.out ++ framed e (build s slot (BitVec.ofNat 4 (s.cyc.toNat / 2)) .none 0)
        resp := some (okWord (buses e.txMask).length) })

/-- R196, R197: the whole effect of FRM.TX on a slot of class LONG, by family. -/
def Obligations.FrmTxLong : Prop :=
  ∀ (s : State) (slot : Slot), TxReady s slot → s.tbl[slot].cls = .long → s.phase.toNat ≤ 2 →
    let e := s.tbl[slot]
    (∀ (q : List Counter) (v : Counter), s.fam = .a → s.fifo[slot] = q ++ [v] →
      exec (.frmTx slot) s = .next { s with
        phase := 2#2
        fifo := s.fifo.set slot []
        out := s.out ++ framed e (build s slot v .none 0)
        resp := some (okWord (buses e.txMask).length) }) ∧
    (s.fam = .b →
      exec (.frmTx slot) s = .next { s with
        phase := 2#2
        fifo := s.fifo.set slot []
        out := s.out ++ (s.fifo[slot].map fun v => framed e (build s slot v .none 0)).flatten
        resp := some (okWord (s.fifo[slot].length * (buses e.txMask).length)) })

/-- R198, R199: the whole effect of FRM.TX on a slot of class CANCEL, by family. -/
def Obligations.FrmTxCancel : Prop :=
  ∀ (s : State) (slot : Slot), TxReady s slot → s.tbl[slot].cls = .cancel → s.lastv[slot] = true →
    let e := s.tbl[slot]
    let c := fun (i : Nat) => BitVec.ofNat 4 ((s.last[slot].toNat + 1 + i) % 16)
    (s.fam = .a →
      exec (.frmTx slot) s = .next { s with
        phase := 3#2
        out := s.out ++ (framed e (build s slot (c 0) .active 0) ++ framed e (build s slot (c 1) .neutral 1))
        resp := some (okWord (2 * (buses e.txMask).length)) }) ∧
    (s.fam = .b →
      exec (.frmTx slot) s = .next { s with
        phase := 3#2
        out := s.out ++ ((List.range 16).map fun i => framed e (build s slot (c i) .active 0)).flatten
        resp := some (okWord (16 * (buses e.txMask).length)) })

/-- R200: the response of a successful FRM.TX is the number of frames it appended, by class and family. -/
def Obligations.FrmTxCountsItsFrames : Prop :=
  ∀ (s t : State) (slot : Slot) (d : Nat), s.Inv → exec (.frmTx slot) s = .next t → d < 0x10000 →
    t.resp = some (BitVec.ofNat 21 d) →
    let e := s.tbl[slot]
    let n := (buses e.txMask).length
    t.out.length = s.out.length + d ∧ 1 ≤ n ∧ n ≤ 3 ∧
    d = (match e.cls, s.fam with
      | .other, _ => n
      | .steer, _ => n
      | .long, .a => n
      | .long, .b => s.fifo[slot].length * n
      | .cancel, .a => 2 * n
      | .cancel, .b => 16 * n)

/-- R137, R213, as a property of each FRM.TX: every frame it emits on a slot with KIND SUM or CRC carries the checksum or
CRC of its own covered bytes, its own counter among them. -/
def Obligations.EmittedFramesAuthenticate : Prop :=
  ∀ (s t : State) (slot : Slot), s.Inv → exec (.frmTx slot) s = .next t →
    let e := s.tbl[slot]
    ∃ fs, t.out = s.out ++ fs ∧ ∀ f ∈ fs,
      f.id = e.id ∧ f.len = e.len ∧ f.data.length = e.len.toNat ∧ e.txMask.getLsbD f.bus.toNat = true ∧
      (e.kind = .sum → f.data[e.pos.toNat]? = some (sum8 e.id (f.data.take e.k.toNat))) ∧
      (e.kind = .crc → f.data[e.pos.toNat]? = some (crc8 s.params.crc8Init (f.data.take e.k.toNat))) ∧
      (e.kind = .sum ∨ e.kind = .crc → e.ctrEn = true → e.ctrByte.toNat < e.k.toNat)

/-- The frames of the classes STEER, LONG and CANCEL leave in non-decreasing class order between two TICKs: PHASE
never falls but by TICK, a successful FRM.TX of such a class is not below PHASE and becomes PHASE, and no other command
emits (R189, R190, R212). -/
def Obligations.ClassOrderWithinCycle : Prop :=
  ∀ (i : Instr) (s t : State), exec i s = .next t →
    (i ≠ .tick → s.phase.toNat ≤ t.phase.toNat) ∧
    (t.out ≠ s.out → ∃ slot, i = .frmTx slot ∧
      (s.tbl[slot].cls = .other → t.phase = s.phase) ∧
      (s.tbl[slot].cls ≠ .other →
        s.phase.toNat ≤ s.tbl[slot].cls.bits.toNat ∧ t.phase = s.tbl[slot].cls.bits))

/-- FRM.TX neither reads nor writes the incremental registers CRC and SUM (R22, R23). -/
def Obligations.FrmTxIgnoresIncrementalRegisters : Prop :=
  ∀ (s t : State) (slot : Slot) (c d : BitVec 8), exec (.frmTx slot) s = .next t →
    t.crc = s.crc ∧ t.sum = s.sum ∧
    exec (.frmTx slot) { s with crc := c, sum := d } = .next { t with crc := c, sum := d }

/-! ## The RX port (43_frame_mux.md) -/

/-- A frame that arrives while the block is unlocked, or that no slot matches, is dropped and counted (R204, R205). That
no response is visible afterwards (`resp := none`) is the model's choice, which those rules do not say (log entry 3, DESIGN
CHOICE). -/
def Obligations.UnmatchedFrameIsDropped : Prop :=
  ∀ (s : State) (f : RxFrame) (rest : List Input), s.inputs = .receive f :: rest →
    s.locked = false ∨ (∀ i : Slot, ¬ SlotTakes s f i) →
    step s = .next { s with
      inputs := rest
      resp := none
      status := s.status ||| 0x1000#16
      rxDrop := BitVec.ofNat 8 (min 255 (s.rxDrop.toNat + 1)) }

/-- A frame of the wrong length for the slot it matches is dropped and not counted (R206). That no response is visible
afterwards (`resp := none`) is the model's choice, which that rule does not say (log entry 3, DESIGN CHOICE). -/
def Obligations.WrongLengthFrameIsDropped : Prop :=
  ∀ (s : State) (f : RxFrame) (rest : List Input) (slot : Slot), s.Inv → s.inputs = .receive f :: rest →
    s.locked = true → SlotTakes s f slot → f.len ≠ s.tbl[slot].len →
    step s = .next { s with inputs := rest, resp := none, status := s.status ||| 0x0400#16 }

/-- A frame of the right length is stored in the slot it matches, and its counter captured (R207, R208). That no response
is visible afterwards (`resp := none`) is the model's choice, which those rules do not say (log entry 3, DESIGN CHOICE). -/
def Obligations.MatchedFrameIsStored : Prop :=
  ∀ (s : State) (f : RxFrame) (rest : List Input) (slot : Slot), s.Inv → s.inputs = .receive f :: rest →
    s.locked = true → SlotTakes s f slot → f.len = s.tbl[slot].len →
    let e := s.tbl[slot]
    let v : Counter := BitVec.ofNat 4 (f.data[e.ctrByte.toFin].toNat / 2 ^ e.ctrLsb.toNat)
    let q := s.fifo[slot]
    let full := q.length = s.params.fifoDepth
    ∃ t, step s = .next t ∧
      t = { s with
        inputs := rest
        resp := none
        rxbuf := t.rxbuf
        rxcnt := s.rxcnt.set slot (BitVec.ofNat 8 ((s.rxcnt[slot].toNat + 1) % 256))
        last := if e.ctrEn then s.last.set slot v else s.last
        lastv := if e.ctrEn then s.lastv.set slot true else s.lastv
        fifo := if e.ctrEn = true ∧ e.cls = .long then
            s.fifo.set slot ((if full then q.drop 1 else q) ++ [v]) else s.fifo
        status := if e.ctrEn = true ∧ e.cls = .long ∧ full then s.status ||| 0x0800#16 else s.status } ∧
      ∀ (i : Slot) (j : ByteIndex), t.rxbuf[i][j] =
        if i = slot ∧ j.val < f.len.toNat then f.data[j] else s.rxbuf[i][j]

/-- After a successful LOCK at most one slot matches any frame (R203, R251). -/
def Obligations.AtMostOneSlotMatches : Prop :=
  ∀ (s : State) (f : RxFrame) (i j : Slot), s.Inv → s.locked = true →
    SlotTakes s f i → SlotTakes s f j → i = j

/-- A reception never writes ERR and shows only in STATUS[10..12], RX_DROP, RXCNT, RXBUF, LAST, LASTV and FIFO (R211).
R211 says it produces no response; that an older response is no longer visible either (`resp := none`) is the model's
choice (log entry 3, DESIGN CHOICE). -/
def Obligations.ReceptionWritesOnlyItsState : Prop :=
  ∀ (s t : State) (f : RxFrame) (rest : List Input), s.inputs = .receive f :: rest → step s = .next t →
    t = { s with
      inputs := rest
      resp := none
      status := t.status
      rxDrop := t.rxDrop
      rxcnt := t.rxcnt
      rxbuf := t.rxbuf
      last := t.last
      lastv := t.lastv
      fifo := t.fifo } ∧
    t.status &&& ~~~0x1C00#16 = s.status &&& ~~~0x1C00#16 ∧
    s.status &&& t.status = s.status

/-! ## The whole block -/

/-- The value of every state element and output of State.reset under the default parameters of R8 (R320); AUTH_TABLE
has no default and nothing is said of it. That the defaults are carried by the state is the model's choice (log entry 5),
and so is that nothing has arrived yet (log entry 1). -/
def Obligations.ResetValues : Prop :=
  AtReset State.reset ∧ State.reset.params.crc8Init = 0xFF#8 ∧ State.reset.params.fifoDepth = 4 ∧
  State.reset.inputs = [] ∧ ∀ f : BitVec 4, TblEntry.zero.pack f = 0#16

/-- The reset input puts every state element and output at its reset value and does not change the parameters (R320).
That the arrivals after it are still to come (`t.inputs = rest`) is the model's inference, which R320 does not say
(log entry 2, DEDUCED). -/
def Obligations.ResetInputRestores : Prop :=
  ∀ (s : State) (rest : List Input), s.inputs = .reset :: rest →
    ∃ t, step s = .next t ∧ AtReset t ∧ t.params = s.params ∧ t.inputs = rest

/-- The parameters are never written (R320). -/
def Obligations.ParametersNeverChange : Prop :=
  ∀ s t : State, step s = .next t → t.params = s.params

/-- Every step keeps the legal states of the block (R27, R29, R30, R33, R38, R97, R231, R246). -/
def Obligations.LegalStateKeptByEveryStep : Prop :=
  ∀ s t : State, s.Inv → step s = .next t → t.Inv

/-- The state after reset is legal. -/
def Obligations.ResetStateIsLegal : Prop := State.reset.Inv

/-- The frame-out stream only grows, at its end, and only FRM.TX makes it grow; reset alone empties it
(R69, R183, R320). -/
def Obligations.OutputOnlyGrows : Prop :=
  ∀ (s t : State) (x : Input) (rest : List Input), s.inputs = x :: rest → x ≠ .reset → step s = .next t →
    ∃ fs, t.out = s.out ++ fs ∧ (fs ≠ [] → ∃ slot, x = .command (encode (.frmTx slot)))

/-- Of the commands, each state element is written by those its rule names and by no other (R22–R38): FRM.TX writes CTR
on a slot of class OTHER only, FIFO on class LONG only and PHASE on the classes STEER, LONG and CANCEL only, and STATUS and
ERR change by a failure or by CLRSTAT only. -/
def Obligations.RegistersHaveOnlyTheirWriters : Prop :=
  ∀ (i : Instr) (s t : State), exec i s = .next t →
    (t.crc ≠ s.crc → i = .crcInit ∨ (∃ b, i = .crcFeed b) ∨ ∃ slot src k, i = .crcBuf slot src k) ∧
    (t.sum ≠ s.sum → (∃ id, i = .sumInit id) ∨ (∃ b, i = .sumFeed b) ∨ ∃ slot src k, i = .sumBuf slot src k) ∧
    (t.cyc ≠ s.cyc → i = .tick) ∧
    (t.phase ≠ s.phase → i = .tick ∨ ∃ slot, i = .frmTx slot ∧ s.tbl[slot].cls ≠ .other) ∧
    (t.fam ≠ s.fam ∨ t.sub ≠ s.sub → ∃ v, i = .setvar v) ∧
    (t.locked ≠ s.locked → i = .lock) ∧
    (t.status ≠ s.status → (∃ m, i = .clrstat m) ∨ ∃ n : Nat, 1 ≤ n ∧ n ≤ 9 ∧ t = failed n s) ∧
    (t.err ≠ s.err → (∃ m, i = .clrstat m) ∨ ∃ n : Nat, 1 ≤ n ∧ n ≤ 9 ∧ t = failed n s) ∧
    (t.irqEn ≠ s.irqEn → ∃ m, i = .setirq m) ∧
    (t.tbl ≠ s.tbl → ∃ slot f v, i = .cfgWr slot f v) ∧
    (t.txbuf ≠ s.txbuf → (∃ slot idx b, i = .bufWr slot idx b) ∨ (∃ slot, i = .bufSnap slot) ∨
      ∃ slot, i = .bufClr slot) ∧
    (t.ctr ≠ s.ctr → (∃ slot v, i = .cntLd slot v) ∨ (∃ slot, i = .cntInc slot) ∨
      ∃ slot, i = .frmTx slot ∧ s.tbl[slot].cls = .other) ∧
    (t.fifo ≠ s.fifo → (∃ slot, i = .cntPop slot) ∨ ∃ slot, i = .frmTx slot ∧ s.tbl[slot].cls = .long) ∧
    t.rxbuf = s.rxbuf ∧ t.rxcnt = s.rxcnt ∧ t.last = s.last ∧ t.lastv = s.lastv ∧ t.rxDrop = s.rxDrop ∧
    t.params = s.params ∧ t.inputs = s.inputs

/-- A read command but CNT.POP leaves the state of the block as it was, and issued again gives the same response
(R67). -/
def Obligations.ReadsAreIdempotent : Prop :=
  ∀ (i : Instr) (s : State), isPureRead i = true →
    ∃ t, exec i s = .next t ∧ t = { s with resp := t.resp } ∧ exec i t = .next t

/-- A STATUS bit that is set stays set until CLRSTAT clears it (R29). -/
def Obligations.StatusBitsStick : Prop :=
  ∀ (s t : State) (x : Input) (rest : List Input) (n : Nat), s.inputs = x :: rest → x ≠ .reset →
    step s = .next t → s.status.getLsbD n = true → t.status.getLsbD n = false →
    ∃ m : BitVec 16, x = .command (encode (.clrstat m)) ∧ m.getLsbD n = true

/-- The interrupt level is up exactly while one of the events 1..12 is both pending in STATUS and enabled (R297). -/
def Obligations.InterruptLevel : Prop :=
  ∀ s : State, s.Inv →
    (s.irq = true ↔ ∃ n : Nat, 1 ≤ n ∧ n ≤ 12 ∧ s.status.getLsbD n = true ∧ s.irqEn.getLsbD n = true)

/-- The sub-flag SUB has no effect on any result of the block but the answer of RDVAR, whose word is 0x04000000
(R42). -/
def Obligations.SubFlagHasNoEffect : Prop :=
  ∀ (s t : State) (b : Bool), s.inputs.head? ≠ some (.command 0x04000000#32) → step s = .next t →
    ∃ b', step { s with sub := b } = .next { t with sub := b' }
end

