-- ==== Sys2Proof/Laws/Decode.lean ====
section
/-! SUPPORT. Small lemmas of the decoder and the encoder: the fields of an encoded word, the reserved-bit masks of R96
against the bit ranges of `Format.zeroBits` (R84, and log entry 15 for format SI), and what a decoded word says of its row. -/

set_option linter.unusedSimpArgs false

namespace Sys2Proof

/-- Lemmas that take a field out of a word written as a concatenation; use with (disch := decide). -/
theorem extract_append_low {v w start len : Nat} (x : BitVec v) (y : BitVec w) (h : start + len ≤ w) :
    (x ++ y).extractLsb' start len = y.extractLsb' start len :=
  BitVec.extractLsb'_append_eq_of_add_le h

theorem extract_append_high {v w start len : Nat} (x : BitVec v) (y : BitVec w) (h : w ≤ start) :
    (x ++ y).extractLsb' start len = x.extractLsb' (start - w) len :=
  BitVec.extractLsb'_append_eq_of_le h

/-- A field is 0 when all its bits are. -/
theorem extract_eq_zero_iff (w : Word) (lo n : Nat) :
    w.extractLsb' lo n = 0#n ↔ ∀ i, i < n → w.getLsbD (lo + i) = false := by
  constructor
  · intro h i hi
    have h2 := congrArg (fun x => x.getLsbD i) h
    simpa [hi] using h2
  · intro h
    apply BitVec.eq_of_getLsbD_eq
    intro i hi
    simp [hi, h i hi]

/-- A word masked to 0 has no bit of the mask. -/
theorem and_mask_eq_zero_iff (w m : Word) :
    w &&& m = 0#32 ↔ ∀ i, i < 32 → m.getLsbD i = true → w.getLsbD i = false := by
  constructor
  · intro h i hi hm
    have h2 := congrArg (fun x => x.getLsbD i) h
    simpa [hm] using h2
  · intro h
    apply BitVec.eq_of_getLsbD_eq
    intro i hi
    cases hm : m.getLsbD i
    · simp [hm]
    · simp [hm, h i hi hm]

/-- The reserved bits of a format are clear when every range of its `zeroBits` is 0. -/
theorem reservedClear_iff (f : Format) (w : Word) :
    f.reservedClear w = true ↔ ∀ r ∈ f.zeroBits, ∀ i, i < r.2 → w.getLsbD (r.1 + i) = false := by
  simp only [Format.reservedClear, List.all_eq_true, beq_iff_eq]
  exact ⟨fun h r hr => (extract_eq_zero_iff w r.1 r.2).1 (h r hr),
    fun h r hr => (extract_eq_zero_iff w r.1 r.2).2 (h r hr)⟩

/-- The ranges of a format cover exactly the bits of the mask. -/
def maskCovers (f : Format) (m : Word) : Bool :=
  (List.range 32).all fun b =>
    m.getLsbD b == f.zeroBits.any fun r => decide (r.1 ≤ b) && decide (b < r.1 + r.2)

/-- A format's reserved bits are clear exactly when the word has no bit of its mask. -/
theorem reservedClear_iff_mask (f : Format) (m w : Word) (hc : maskCovers f m = true)
    (hr : ∀ r ∈ f.zeroBits, r.1 + r.2 ≤ 32) : f.reservedClear w = true ↔ w &&& m = 0#32 := by
  rw [reservedClear_iff, and_mask_eq_zero_iff]
  simp only [maskCovers, List.all_eq_true, List.mem_range, beq_iff_eq] at hc
  constructor
  · intro h b hb hm
    rw [hc b hb] at hm
    simp only [List.any_eq_true, Bool.and_eq_true, decide_eq_true_eq] at hm
    obtain ⟨r, hr1, hr2, hr3⟩ := hm
    have := h r hr1 (b - r.1) (by omega)
    rwa [show r.1 + (b - r.1) = b by omega] at this
  · intro h r hr1 i hi
    have h32 : r.1 + i < 32 := by have := hr r hr1; omega
    apply h _ h32
    rw [hc _ h32]
    simp only [List.any_eq_true, Bool.and_eq_true, decide_eq_true_eq]
    exact ⟨r, hr1, by omega, by omega⟩

/-- The mask column of R96, less FAM and FN, is the reserved bits of the row's format in `Format.zeroBits`. -/
theorem opcodeMap_masks :
    opcodeMap.all (fun r => maskCovers r.format (r.maskWord &&& 0x00FFFFFF#32)) = true := by decide

/-- The match column of R96 is FAM and FN alone, and the mask column takes both in. -/
theorem opcodeMap_matches :
    opcodeMap.all (fun r => r.matchWord == r.fam ++ r.fn ++ 0#24 && r.maskWord.extractLsb' 24 8 == 0xFF#8) = true := by
  decide

/-- No two rows of the opcode map have the same FAM and FN. -/
theorem opcodeMap_nodup : opcodeMap.Pairwise (fun a b => a.fam ≠ b.fam ∨ a.fn ≠ b.fn) := by
  simp only [opcodeMap, sysRows, crcRows, sumRows, cntRows, bufRows, frmRows, cfgRows]
  decide

/-- Every range of reserved bits lies in the word. -/
theorem zeroBits_le (f : Format) : ∀ r ∈ f.zeroBits, r.1 + r.2 ≤ 32 := by
  cases f <;> decide

/-- What a decoded word says: its row, its reserved bits, and the command it names. -/
theorem decode_ok_iff (w : Word) (i : Instr) :
    decode w = .ok i ↔ ∃ row, opcodeMap.find? (fun r => r.fam == famOf w && r.fn == fnOf w) = some row ∧
      row.format.reservedClear w = true ∧ (row.make w).wellFormed = true ∧ row.make w = i := by
  unfold decode
  cases h : opcodeMap.find? (fun r => r.fam == famOf w && r.fn == fnOf w) with
  | none => simp
  | some row =>
    by_cases hc : row.format.reservedClear w = true <;> by_cases hw : (row.make w).wellFormed = true <;>
      simp [hc, hw]

/-- A decoded command is well formed. -/
theorem decode_wellFormed {w : Word} {i : Instr} (h : decode w = .ok i) : i.wellFormed = true := by
  obtain ⟨row, -, -, hw, rfl⟩ := (decode_ok_iff w i).1 h
  exact hw

/-- A field of a field is a field of the word. -/
theorem extract_extract {n : Nat} (w : BitVec n) (a len b m : Nat) (h : b + m ≤ len) :
    (w.extractLsb' a len).extractLsb' b m = w.extractLsb' (a + b) m := by
  apply BitVec.eq_of_getLsbD_eq
  intro i hi
  have : b + i < len := by omega
  simp [hi, this, Nat.add_assoc]

/-- FAM and FN from the byte they make. -/
theorem famOf_of_byte {w : Word} {op : BitVec 8} (h : w.extractLsb' 24 8 = op) : famOf w = op.extractLsb' 4 4 := by
  rw [← h, extract_extract w 24 8 4 4 (by decide)]; rfl

theorem fnOf_of_byte {w : Word} {op : BitVec 8} (h : w.extractLsb' 24 8 = op) : fnOf w = op.extractLsb' 0 4 := by
  rw [← h, extract_extract w 24 8 0 4 (by decide)]; rfl

theorem extract_zero (n lo len : Nat) : (0#n).extractLsb' lo len = 0#len := by simp

theorem extract_append_whole_low {v w : Nat} (x : BitVec v) (y : BitVec w) : (x ++ y).extractLsb' 0 w = y := by
  rw [extract_append_low x y (by omega)]; simp

theorem extract_whole {v : Nat} (x : BitVec v) : x.extractLsb' 0 v = x := by simp

/-! ## FAM, FN and the reserved bits of an encoded word, format by format -/

@[simp] theorem famOf_encodeN (fam fn : BitVec 4) : famOf (encodeN fam fn) = fam := by
  simp (disch := decide) only [famOf, encodeN, extract_append_high]
  exact extract_whole fam

@[simp] theorem fnOf_encodeN (fam fn : BitVec 4) : fnOf (encodeN fam fn) = fn := by
  simp (disch := decide) only [fnOf, encodeN, extract_append_high]
  exact extract_append_whole_low fam fn

theorem reservedClear_encodeN (fam fn : BitVec 4) : Format.n.reservedClear (encodeN fam fn) = true := by
  simp (disch := decide) only [Format.reservedClear, Format.zeroBits, encodeN, List.all_cons, List.all_nil,
    extract_append_high, extract_append_low, extract_zero]
  rfl

@[simp] theorem famOf_encodeB (fam fn : BitVec 4) (imm8 : BitVec 8) : famOf (encodeB fam fn imm8) = fam := by
  simp (disch := decide) only [famOf, encodeB, extract_append_high]
  exact extract_whole fam

@[simp] theorem fnOf_encodeB (fam fn : BitVec 4) (imm8 : BitVec 8) : fnOf (encodeB fam fn imm8) = fn := by
  simp (disch := decide) only [fnOf, encodeB, extract_append_high]
  exact extract_append_whole_low fam fn

theorem reservedClear_encodeB (fam fn : BitVec 4) (imm8 : BitVec 8) : Format.b.reservedClear (encodeB fam fn imm8) = true := by
  simp (disch := decide) only [Format.reservedClear, Format.zeroBits, encodeB, List.all_cons, List.all_nil,
    extract_append_high, extract_append_low, extract_zero]
  rfl

@[simp] theorem famOf_encodeI (fam fn : BitVec 4) (id : BitVec 11) : famOf (encodeI fam fn id) = fam := by
  simp (disch := decide) only [famOf, encodeI, extract_append_high]
  exact extract_whole fam

@[simp] theorem fnOf_encodeI (fam fn : BitVec 4) (id : BitVec 11) : fnOf (encodeI fam fn id) = fn := by
  simp (disch := decide) only [fnOf, encodeI, extract_append_high]
  exact extract_append_whole_low fam fn

theorem reservedClear_encodeI (fam fn : BitVec 4) (id : BitVec 11) : Format.i.reservedClear (encodeI fam fn id) = true := by
  simp (disch := decide) only [Format.reservedClear, Format.zeroBits, encodeI, List.all_cons, List.all_nil,
    extract_append_high, extract_append_low, extract_zero]
  rfl

@[simp] theorem famOf_encodeM (fam fn : BitVec 4) (mask16 : BitVec 16) : famOf (encodeM fam fn mask16) = fam := by
  simp (disch := decide) only [famOf, encodeM, extract_append_high]
  exact extract_whole fam

@[simp] theorem fnOf_encodeM (fam fn : BitVec 4) (mask16 : BitVec 16) : fnOf (encodeM fam fn mask16) = fn := by
  simp (disch := decide) only [fnOf, encodeM, extract_append_high]
  exact extract_append_whole_low fam fn

theorem reservedClear_encodeM (fam fn : BitVec 4) (mask16 : BitVec 16) : Format.m.reservedClear (encodeM fam fn mask16) = true := by
  simp (disch := decide) only [Format.reservedClear, Format.zeroBits, encodeM, List.all_cons, List.all_nil,
    extract_append_high, extract_append_low, extract_zero]
  rfl

@[simp] theorem famOf_encodeS (fam fn : BitVec 4) (slot : Slot) : famOf (encodeS fam fn slot) = fam := by
  simp (disch := decide) only [famOf, encodeS, extract_append_high]
  exact extract_whole fam

@[simp] theorem fnOf_encodeS (fam fn : BitVec 4) (slot : Slot) : fnOf (encodeS fam fn slot) = fn := by
  simp (disch := decide) only [fnOf, encodeS, extract_append_high]
  exact extract_append_whole_low fam fn

theorem reservedClear_encodeS (fam fn : BitVec 4) (slot : Slot) : Format.s.reservedClear (encodeS fam fn slot) = true := by
  simp (disch := decide) only [Format.reservedClear, Format.zeroBits, encodeS, List.all_cons, List.all_nil,
    extract_append_high, extract_append_low, extract_zero]
  rfl

@[simp] theorem famOf_encodeSV (fam fn : BitVec 4) (slot : Slot) (v : BitVec 4) : famOf (encodeSV fam fn slot v) = fam := by
  simp (disch := decide) only [famOf, encodeSV, extract_append_high]
  exact extract_whole fam

@[simp] theorem fnOf_encodeSV (fam fn : BitVec 4) (slot : Slot) (v : BitVec 4) : fnOf (encodeSV fam fn slot v) = fn := by
  simp (disch := decide) only [fnOf, encodeSV, extract_append_high]
  exact extract_append_whole_low fam fn

theorem reservedClear_encodeSV (fam fn : BitVec 4) (slot : Slot) (v : BitVec 4) : Format.sv.reservedClear (encodeSV fam fn slot v) = true := by
  simp (disch := decide) only [Format.reservedClear, Format.zeroBits, encodeSV, List.all_cons, List.all_nil,
    extract_append_high, extract_append_low, extract_zero]
  rfl

@[simp] theorem famOf_encodeSK (fam fn : BitVec 4) (slot : Slot) (src : BufSrc) (k : BitVec 4) : famOf (encodeSK fam fn slot src k) = fam := by
  simp (disch := decide) only [famOf, encodeSK, extract_append_high]
  exact extract_whole fam

@[simp] theorem fnOf_encodeSK (fam fn : BitVec 4) (slot : Slot) (src : BufSrc) (k : BitVec 4) : fnOf (encodeSK fam fn slot src k) = fn := by
  simp (disch := decide) only [fnOf, encodeSK, extract_append_high]
  exact extract_append_whole_low fam fn

theorem reservedClear_encodeSK (fam fn : BitVec 4) (slot : Slot) (src : BufSrc) (k : BitVec 4) : Format.sk.reservedClear (encodeSK fam fn slot src k) = true := by
  simp (disch := decide) only [Format.reservedClear, Format.zeroBits, encodeSK, List.all_cons, List.all_nil,
    extract_append_high, extract_append_low, extract_zero]
  rfl

@[simp] theorem famOf_encodeSIB (fam fn : BitVec 4) (slot : Slot) (idx : ByteIndex) (byte : BitVec 8) : famOf (encodeSIB fam fn slot idx byte) = fam := by
  simp (disch := decide) only [famOf, encodeSIB, extract_append_high]
  exact extract_whole fam

@[simp] theorem fnOf_encodeSIB (fam fn : BitVec 4) (slot : Slot) (idx : ByteIndex) (byte : BitVec 8) : fnOf (encodeSIB fam fn slot idx byte) = fn := by
  simp (disch := decide) only [fnOf, encodeSIB, extract_append_high]
  exact extract_append_whole_low fam fn

theorem reservedClear_encodeSIB (fam fn : BitVec 4) (slot : Slot) (idx : ByteIndex) (byte : BitVec 8) : Format.sib.reservedClear (encodeSIB fam fn slot idx byte) = true := by
  simp (disch := decide) only [Format.reservedClear, Format.zeroBits, encodeSIB, List.all_cons, List.all_nil,
    extract_append_high, extract_append_low, extract_zero]
  rfl

@[simp] theorem famOf_encodeSI (fam fn : BitVec 4) (slot : Slot) (src : BufSrc) (idx : ByteIndex) : famOf (encodeSI fam fn slot src idx) = fam := by
  simp (disch := decide) only [famOf, encodeSI, extract_append_high]
  exact extract_whole fam

@[simp] theorem fnOf_encodeSI (fam fn : BitVec 4) (slot : Slot) (src : BufSrc) (idx : ByteIndex) : fnOf (encodeSI fam fn slot src idx) = fn := by
  simp (disch := decide) only [fnOf, encodeSI, extract_append_high]
  exact extract_append_whole_low fam fn

theorem reservedClear_encodeSI (fam fn : BitVec 4) (slot : Slot) (src : BufSrc) (idx : ByteIndex) : Format.si.reservedClear (encodeSI fam fn slot src idx) = true := by
  simp (disch := decide) only [Format.reservedClear, Format.zeroBits, encodeSI, List.all_cons, List.all_nil,
    extract_append_high, extract_append_low, extract_zero]
  rfl

@[simp] theorem famOf_encodeCW (fam fn : BitVec 4) (slot : Slot) (field : BitVec 4) (value : BitVec 12) : famOf (encodeCW fam fn slot field value) = fam := by
  simp (disch := decide) only [famOf, encodeCW, extract_append_high]
  exact extract_whole fam

@[simp] theorem fnOf_encodeCW (fam fn : BitVec 4) (slot : Slot) (field : BitVec 4) (value : BitVec 12) : fnOf (encodeCW fam fn slot field value) = fn := by
  simp (disch := decide) only [fnOf, encodeCW, extract_append_high]
  exact extract_append_whole_low fam fn

theorem reservedClear_encodeCW (fam fn : BitVec 4) (slot : Slot) (field : BitVec 4) (value : BitVec 12) : Format.cw.reservedClear (encodeCW fam fn slot field value) = true := by
  simp (disch := decide) only [Format.reservedClear, Format.zeroBits, encodeCW, List.all_cons, List.all_nil,
    extract_append_high, extract_append_low, extract_zero]
  rfl

@[simp] theorem famOf_encodeCR (fam fn : BitVec 4) (slot : Slot) (field : BitVec 4) : famOf (encodeCR fam fn slot field) = fam := by
  simp (disch := decide) only [famOf, encodeCR, extract_append_high]
  exact extract_whole fam

@[simp] theorem fnOf_encodeCR (fam fn : BitVec 4) (slot : Slot) (field : BitVec 4) : fnOf (encodeCR fam fn slot field) = fn := by
  simp (disch := decide) only [fnOf, encodeCR, extract_append_high]
  exact extract_append_whole_low fam fn

theorem reservedClear_encodeCR (fam fn : BitVec 4) (slot : Slot) (field : BitVec 4) : Format.cr.reservedClear (encodeCR fam fn slot field) = true := by
  simp (disch := decide) only [Format.reservedClear, Format.zeroBits, encodeCR, List.all_cons, List.all_nil,
    extract_append_high, extract_append_low, extract_zero]
  rfl

end Sys2Proof
end

