-- ==== Sys2Proof/Laws/State.lean ====
section
/-! SUPPORT. Every field of the state after every named update, so that no proof unfolds a record update: the field an
update writes, and the fields it leaves alone. -/

namespace Sys2Proof.Machine

variable (s : State)

/-! ## respond -/

@[simp] theorem respond_params (d : BitVec 16) : (respond d s).params = s.params := rfl
@[simp] theorem respond_crc (d : BitVec 16) : (respond d s).crc = s.crc := rfl
@[simp] theorem respond_sum (d : BitVec 16) : (respond d s).sum = s.sum := rfl
@[simp] theorem respond_cyc (d : BitVec 16) : (respond d s).cyc = s.cyc := rfl
@[simp] theorem respond_phase (d : BitVec 16) : (respond d s).phase = s.phase := rfl
@[simp] theorem respond_fam (d : BitVec 16) : (respond d s).fam = s.fam := rfl
@[simp] theorem respond_sub (d : BitVec 16) : (respond d s).sub = s.sub := rfl
@[simp] theorem respond_locked (d : BitVec 16) : (respond d s).locked = s.locked := rfl
@[simp] theorem respond_status (d : BitVec 16) : (respond d s).status = s.status := rfl
@[simp] theorem respond_err (d : BitVec 16) : (respond d s).err = s.err := rfl
@[simp] theorem respond_irqEn (d : BitVec 16) : (respond d s).irqEn = s.irqEn := rfl
@[simp] theorem respond_rxDrop (d : BitVec 16) : (respond d s).rxDrop = s.rxDrop := rfl
@[simp] theorem respond_tbl (d : BitVec 16) : (respond d s).tbl = s.tbl := rfl
@[simp] theorem respond_txbuf (d : BitVec 16) : (respond d s).txbuf = s.txbuf := rfl
@[simp] theorem respond_rxbuf (d : BitVec 16) : (respond d s).rxbuf = s.rxbuf := rfl
@[simp] theorem respond_rxcnt (d : BitVec 16) : (respond d s).rxcnt = s.rxcnt := rfl
@[simp] theorem respond_ctr (d : BitVec 16) : (respond d s).ctr = s.ctr := rfl
@[simp] theorem respond_last (d : BitVec 16) : (respond d s).last = s.last := rfl
@[simp] theorem respond_lastv (d : BitVec 16) : (respond d s).lastv = s.lastv := rfl
@[simp] theorem respond_fifo (d : BitVec 16) : (respond d s).fifo = s.fifo := rfl
@[simp] theorem respond_resp (d : BitVec 16) : (respond d s).resp = some (okResponse d) := rfl
@[simp] theorem respond_out (d : BitVec 16) : (respond d s).out = s.out := rfl
@[simp] theorem respond_inputs (d : BitVec 16) : (respond d s).inputs = s.inputs := rfl

/-! ## fail -/

@[simp] theorem fail_params (e : ErrCode) : (fail e s).params = s.params := rfl
@[simp] theorem fail_crc (e : ErrCode) : (fail e s).crc = s.crc := rfl
@[simp] theorem fail_sum (e : ErrCode) : (fail e s).sum = s.sum := rfl
@[simp] theorem fail_cyc (e : ErrCode) : (fail e s).cyc = s.cyc := rfl
@[simp] theorem fail_phase (e : ErrCode) : (fail e s).phase = s.phase := rfl
@[simp] theorem fail_fam (e : ErrCode) : (fail e s).fam = s.fam := rfl
@[simp] theorem fail_sub (e : ErrCode) : (fail e s).sub = s.sub := rfl
@[simp] theorem fail_locked (e : ErrCode) : (fail e s).locked = s.locked := rfl
@[simp] theorem fail_status (e : ErrCode) : (fail e s).status = s.status ||| statusBit e.code := rfl
@[simp] theorem fail_err (e : ErrCode) : (fail e s).err = e.code := rfl
@[simp] theorem fail_irqEn (e : ErrCode) : (fail e s).irqEn = s.irqEn := rfl
@[simp] theorem fail_rxDrop (e : ErrCode) : (fail e s).rxDrop = s.rxDrop := rfl
@[simp] theorem fail_tbl (e : ErrCode) : (fail e s).tbl = s.tbl := rfl
@[simp] theorem fail_txbuf (e : ErrCode) : (fail e s).txbuf = s.txbuf := rfl
@[simp] theorem fail_rxbuf (e : ErrCode) : (fail e s).rxbuf = s.rxbuf := rfl
@[simp] theorem fail_rxcnt (e : ErrCode) : (fail e s).rxcnt = s.rxcnt := rfl
@[simp] theorem fail_ctr (e : ErrCode) : (fail e s).ctr = s.ctr := rfl
@[simp] theorem fail_last (e : ErrCode) : (fail e s).last = s.last := rfl
@[simp] theorem fail_lastv (e : ErrCode) : (fail e s).lastv = s.lastv := rfl
@[simp] theorem fail_fifo (e : ErrCode) : (fail e s).fifo = s.fifo := rfl
@[simp] theorem fail_resp (e : ErrCode) : (fail e s).resp = some (errResponse e) := rfl
@[simp] theorem fail_out (e : ErrCode) : (fail e s).out = s.out := rfl
@[simp] theorem fail_inputs (e : ErrCode) : (fail e s).inputs = s.inputs := rfl

/-! ## raise -/

@[simp] theorem raise_params (ev : RxEvent) : (raise ev s).params = s.params := rfl
@[simp] theorem raise_crc (ev : RxEvent) : (raise ev s).crc = s.crc := rfl
@[simp] theorem raise_sum (ev : RxEvent) : (raise ev s).sum = s.sum := rfl
@[simp] theorem raise_cyc (ev : RxEvent) : (raise ev s).cyc = s.cyc := rfl
@[simp] theorem raise_phase (ev : RxEvent) : (raise ev s).phase = s.phase := rfl
@[simp] theorem raise_fam (ev : RxEvent) : (raise ev s).fam = s.fam := rfl
@[simp] theorem raise_sub (ev : RxEvent) : (raise ev s).sub = s.sub := rfl
@[simp] theorem raise_locked (ev : RxEvent) : (raise ev s).locked = s.locked := rfl
@[simp] theorem raise_status (ev : RxEvent) : (raise ev s).status = s.status ||| statusBit ev.code := rfl
@[simp] theorem raise_err (ev : RxEvent) : (raise ev s).err = s.err := rfl
@[simp] theorem raise_irqEn (ev : RxEvent) : (raise ev s).irqEn = s.irqEn := rfl
@[simp] theorem raise_rxDrop (ev : RxEvent) : (raise ev s).rxDrop = s.rxDrop := rfl
@[simp] theorem raise_tbl (ev : RxEvent) : (raise ev s).tbl = s.tbl := rfl
@[simp] theorem raise_txbuf (ev : RxEvent) : (raise ev s).txbuf = s.txbuf := rfl
@[simp] theorem raise_rxbuf (ev : RxEvent) : (raise ev s).rxbuf = s.rxbuf := rfl
@[simp] theorem raise_rxcnt (ev : RxEvent) : (raise ev s).rxcnt = s.rxcnt := rfl
@[simp] theorem raise_ctr (ev : RxEvent) : (raise ev s).ctr = s.ctr := rfl
@[simp] theorem raise_last (ev : RxEvent) : (raise ev s).last = s.last := rfl
@[simp] theorem raise_lastv (ev : RxEvent) : (raise ev s).lastv = s.lastv := rfl
@[simp] theorem raise_fifo (ev : RxEvent) : (raise ev s).fifo = s.fifo := rfl
@[simp] theorem raise_resp (ev : RxEvent) : (raise ev s).resp = s.resp := rfl
@[simp] theorem raise_out (ev : RxEvent) : (raise ev s).out = s.out := rfl
@[simp] theorem raise_inputs (ev : RxEvent) : (raise ev s).inputs = s.inputs := rfl

/-! ## writeTx -/

@[simp] theorem writeTx_params (i : Slot) (j : ByteIndex) (b : Byte) : (writeTx i j b s).params = s.params := rfl
@[simp] theorem writeTx_crc (i : Slot) (j : ByteIndex) (b : Byte) : (writeTx i j b s).crc = s.crc := rfl
@[simp] theorem writeTx_sum (i : Slot) (j : ByteIndex) (b : Byte) : (writeTx i j b s).sum = s.sum := rfl
@[simp] theorem writeTx_cyc (i : Slot) (j : ByteIndex) (b : Byte) : (writeTx i j b s).cyc = s.cyc := rfl
@[simp] theorem writeTx_phase (i : Slot) (j : ByteIndex) (b : Byte) : (writeTx i j b s).phase = s.phase := rfl
@[simp] theorem writeTx_fam (i : Slot) (j : ByteIndex) (b : Byte) : (writeTx i j b s).fam = s.fam := rfl
@[simp] theorem writeTx_sub (i : Slot) (j : ByteIndex) (b : Byte) : (writeTx i j b s).sub = s.sub := rfl
@[simp] theorem writeTx_locked (i : Slot) (j : ByteIndex) (b : Byte) : (writeTx i j b s).locked = s.locked := rfl
@[simp] theorem writeTx_status (i : Slot) (j : ByteIndex) (b : Byte) : (writeTx i j b s).status = s.status := rfl
@[simp] theorem writeTx_err (i : Slot) (j : ByteIndex) (b : Byte) : (writeTx i j b s).err = s.err := rfl
@[simp] theorem writeTx_irqEn (i : Slot) (j : ByteIndex) (b : Byte) : (writeTx i j b s).irqEn = s.irqEn := rfl
@[simp] theorem writeTx_rxDrop (i : Slot) (j : ByteIndex) (b : Byte) : (writeTx i j b s).rxDrop = s.rxDrop := rfl
@[simp] theorem writeTx_tbl (i : Slot) (j : ByteIndex) (b : Byte) : (writeTx i j b s).tbl = s.tbl := rfl
@[simp] theorem writeTx_txbuf (i : Slot) (j : ByteIndex) (b : Byte) : (writeTx i j b s).txbuf = s.txbuf.set i (s.txbuf[i].set j b) := rfl
@[simp] theorem writeTx_rxbuf (i : Slot) (j : ByteIndex) (b : Byte) : (writeTx i j b s).rxbuf = s.rxbuf := rfl
@[simp] theorem writeTx_rxcnt (i : Slot) (j : ByteIndex) (b : Byte) : (writeTx i j b s).rxcnt = s.rxcnt := rfl
@[simp] theorem writeTx_ctr (i : Slot) (j : ByteIndex) (b : Byte) : (writeTx i j b s).ctr = s.ctr := rfl
@[simp] theorem writeTx_last (i : Slot) (j : ByteIndex) (b : Byte) : (writeTx i j b s).last = s.last := rfl
@[simp] theorem writeTx_lastv (i : Slot) (j : ByteIndex) (b : Byte) : (writeTx i j b s).lastv = s.lastv := rfl
@[simp] theorem writeTx_fifo (i : Slot) (j : ByteIndex) (b : Byte) : (writeTx i j b s).fifo = s.fifo := rfl
@[simp] theorem writeTx_resp (i : Slot) (j : ByteIndex) (b : Byte) : (writeTx i j b s).resp = s.resp := rfl
@[simp] theorem writeTx_out (i : Slot) (j : ByteIndex) (b : Byte) : (writeTx i j b s).out = s.out := rfl
@[simp] theorem writeTx_inputs (i : Slot) (j : ByteIndex) (b : Byte) : (writeTx i j b s).inputs = s.inputs := rfl

/-! ## loadTx -/

@[simp] theorem loadTx_params (i : Slot) (d : Vector Byte 8) : (loadTx i d s).params = s.params := rfl
@[simp] theorem loadTx_crc (i : Slot) (d : Vector Byte 8) : (loadTx i d s).crc = s.crc := rfl
@[simp] theorem loadTx_sum (i : Slot) (d : Vector Byte 8) : (loadTx i d s).sum = s.sum := rfl
@[simp] theorem loadTx_cyc (i : Slot) (d : Vector Byte 8) : (loadTx i d s).cyc = s.cyc := rfl
@[simp] theorem loadTx_phase (i : Slot) (d : Vector Byte 8) : (loadTx i d s).phase = s.phase := rfl
@[simp] theorem loadTx_fam (i : Slot) (d : Vector Byte 8) : (loadTx i d s).fam = s.fam := rfl
@[simp] theorem loadTx_sub (i : Slot) (d : Vector Byte 8) : (loadTx i d s).sub = s.sub := rfl
@[simp] theorem loadTx_locked (i : Slot) (d : Vector Byte 8) : (loadTx i d s).locked = s.locked := rfl
@[simp] theorem loadTx_status (i : Slot) (d : Vector Byte 8) : (loadTx i d s).status = s.status := rfl
@[simp] theorem loadTx_err (i : Slot) (d : Vector Byte 8) : (loadTx i d s).err = s.err := rfl
@[simp] theorem loadTx_irqEn (i : Slot) (d : Vector Byte 8) : (loadTx i d s).irqEn = s.irqEn := rfl
@[simp] theorem loadTx_rxDrop (i : Slot) (d : Vector Byte 8) : (loadTx i d s).rxDrop = s.rxDrop := rfl
@[simp] theorem loadTx_tbl (i : Slot) (d : Vector Byte 8) : (loadTx i d s).tbl = s.tbl := rfl
@[simp] theorem loadTx_txbuf (i : Slot) (d : Vector Byte 8) : (loadTx i d s).txbuf = s.txbuf.set i d := rfl
@[simp] theorem loadTx_rxbuf (i : Slot) (d : Vector Byte 8) : (loadTx i d s).rxbuf = s.rxbuf := rfl
@[simp] theorem loadTx_rxcnt (i : Slot) (d : Vector Byte 8) : (loadTx i d s).rxcnt = s.rxcnt := rfl
@[simp] theorem loadTx_ctr (i : Slot) (d : Vector Byte 8) : (loadTx i d s).ctr = s.ctr := rfl
@[simp] theorem loadTx_last (i : Slot) (d : Vector Byte 8) : (loadTx i d s).last = s.last := rfl
@[simp] theorem loadTx_lastv (i : Slot) (d : Vector Byte 8) : (loadTx i d s).lastv = s.lastv := rfl
@[simp] theorem loadTx_fifo (i : Slot) (d : Vector Byte 8) : (loadTx i d s).fifo = s.fifo := rfl
@[simp] theorem loadTx_resp (i : Slot) (d : Vector Byte 8) : (loadTx i d s).resp = s.resp := rfl
@[simp] theorem loadTx_out (i : Slot) (d : Vector Byte 8) : (loadTx i d s).out = s.out := rfl
@[simp] theorem loadTx_inputs (i : Slot) (d : Vector Byte 8) : (loadTx i d s).inputs = s.inputs := rfl

/-! ## setCtr -/

@[simp] theorem setCtr_params (i : Slot) (v : Counter) : (setCtr i v s).params = s.params := rfl
@[simp] theorem setCtr_crc (i : Slot) (v : Counter) : (setCtr i v s).crc = s.crc := rfl
@[simp] theorem setCtr_sum (i : Slot) (v : Counter) : (setCtr i v s).sum = s.sum := rfl
@[simp] theorem setCtr_cyc (i : Slot) (v : Counter) : (setCtr i v s).cyc = s.cyc := rfl
@[simp] theorem setCtr_phase (i : Slot) (v : Counter) : (setCtr i v s).phase = s.phase := rfl
@[simp] theorem setCtr_fam (i : Slot) (v : Counter) : (setCtr i v s).fam = s.fam := rfl
@[simp] theorem setCtr_sub (i : Slot) (v : Counter) : (setCtr i v s).sub = s.sub := rfl
@[simp] theorem setCtr_locked (i : Slot) (v : Counter) : (setCtr i v s).locked = s.locked := rfl
@[simp] theorem setCtr_status (i : Slot) (v : Counter) : (setCtr i v s).status = s.status := rfl
@[simp] theorem setCtr_err (i : Slot) (v : Counter) : (setCtr i v s).err = s.err := rfl
@[simp] theorem setCtr_irqEn (i : Slot) (v : Counter) : (setCtr i v s).irqEn = s.irqEn := rfl
@[simp] theorem setCtr_rxDrop (i : Slot) (v : Counter) : (setCtr i v s).rxDrop = s.rxDrop := rfl
@[simp] theorem setCtr_tbl (i : Slot) (v : Counter) : (setCtr i v s).tbl = s.tbl := rfl
@[simp] theorem setCtr_txbuf (i : Slot) (v : Counter) : (setCtr i v s).txbuf = s.txbuf := rfl
@[simp] theorem setCtr_rxbuf (i : Slot) (v : Counter) : (setCtr i v s).rxbuf = s.rxbuf := rfl
@[simp] theorem setCtr_rxcnt (i : Slot) (v : Counter) : (setCtr i v s).rxcnt = s.rxcnt := rfl
@[simp] theorem setCtr_ctr (i : Slot) (v : Counter) : (setCtr i v s).ctr = s.ctr.set i v := rfl
@[simp] theorem setCtr_last (i : Slot) (v : Counter) : (setCtr i v s).last = s.last := rfl
@[simp] theorem setCtr_lastv (i : Slot) (v : Counter) : (setCtr i v s).lastv = s.lastv := rfl
@[simp] theorem setCtr_fifo (i : Slot) (v : Counter) : (setCtr i v s).fifo = s.fifo := rfl
@[simp] theorem setCtr_resp (i : Slot) (v : Counter) : (setCtr i v s).resp = s.resp := rfl
@[simp] theorem setCtr_out (i : Slot) (v : Counter) : (setCtr i v s).out = s.out := rfl
@[simp] theorem setCtr_inputs (i : Slot) (v : Counter) : (setCtr i v s).inputs = s.inputs := rfl

/-! ## setFifo -/

@[simp] theorem setFifo_params (i : Slot) (q : List Counter) : (setFifo i q s).params = s.params := rfl
@[simp] theorem setFifo_crc (i : Slot) (q : List Counter) : (setFifo i q s).crc = s.crc := rfl
@[simp] theorem setFifo_sum (i : Slot) (q : List Counter) : (setFifo i q s).sum = s.sum := rfl
@[simp] theorem setFifo_cyc (i : Slot) (q : List Counter) : (setFifo i q s).cyc = s.cyc := rfl
@[simp] theorem setFifo_phase (i : Slot) (q : List Counter) : (setFifo i q s).phase = s.phase := rfl
@[simp] theorem setFifo_fam (i : Slot) (q : List Counter) : (setFifo i q s).fam = s.fam := rfl
@[simp] theorem setFifo_sub (i : Slot) (q : List Counter) : (setFifo i q s).sub = s.sub := rfl
@[simp] theorem setFifo_locked (i : Slot) (q : List Counter) : (setFifo i q s).locked = s.locked := rfl
@[simp] theorem setFifo_status (i : Slot) (q : List Counter) : (setFifo i q s).status = s.status := rfl
@[simp] theorem setFifo_err (i : Slot) (q : List Counter) : (setFifo i q s).err = s.err := rfl
@[simp] theorem setFifo_irqEn (i : Slot) (q : List Counter) : (setFifo i q s).irqEn = s.irqEn := rfl
@[simp] theorem setFifo_rxDrop (i : Slot) (q : List Counter) : (setFifo i q s).rxDrop = s.rxDrop := rfl
@[simp] theorem setFifo_tbl (i : Slot) (q : List Counter) : (setFifo i q s).tbl = s.tbl := rfl
@[simp] theorem setFifo_txbuf (i : Slot) (q : List Counter) : (setFifo i q s).txbuf = s.txbuf := rfl
@[simp] theorem setFifo_rxbuf (i : Slot) (q : List Counter) : (setFifo i q s).rxbuf = s.rxbuf := rfl
@[simp] theorem setFifo_rxcnt (i : Slot) (q : List Counter) : (setFifo i q s).rxcnt = s.rxcnt := rfl
@[simp] theorem setFifo_ctr (i : Slot) (q : List Counter) : (setFifo i q s).ctr = s.ctr := rfl
@[simp] theorem setFifo_last (i : Slot) (q : List Counter) : (setFifo i q s).last = s.last := rfl
@[simp] theorem setFifo_lastv (i : Slot) (q : List Counter) : (setFifo i q s).lastv = s.lastv := rfl
@[simp] theorem setFifo_fifo (i : Slot) (q : List Counter) : (setFifo i q s).fifo = s.fifo.set i q := rfl
@[simp] theorem setFifo_resp (i : Slot) (q : List Counter) : (setFifo i q s).resp = s.resp := rfl
@[simp] theorem setFifo_out (i : Slot) (q : List Counter) : (setFifo i q s).out = s.out := rfl
@[simp] theorem setFifo_inputs (i : Slot) (q : List Counter) : (setFifo i q s).inputs = s.inputs := rfl

/-! ## emitFrames -/

@[simp] theorem emitFrames_params (fs : List Frame) : (emitFrames fs s).params = s.params := rfl
@[simp] theorem emitFrames_crc (fs : List Frame) : (emitFrames fs s).crc = s.crc := rfl
@[simp] theorem emitFrames_sum (fs : List Frame) : (emitFrames fs s).sum = s.sum := rfl
@[simp] theorem emitFrames_cyc (fs : List Frame) : (emitFrames fs s).cyc = s.cyc := rfl
@[simp] theorem emitFrames_phase (fs : List Frame) : (emitFrames fs s).phase = s.phase := rfl
@[simp] theorem emitFrames_fam (fs : List Frame) : (emitFrames fs s).fam = s.fam := rfl
@[simp] theorem emitFrames_sub (fs : List Frame) : (emitFrames fs s).sub = s.sub := rfl
@[simp] theorem emitFrames_locked (fs : List Frame) : (emitFrames fs s).locked = s.locked := rfl
@[simp] theorem emitFrames_status (fs : List Frame) : (emitFrames fs s).status = s.status := rfl
@[simp] theorem emitFrames_err (fs : List Frame) : (emitFrames fs s).err = s.err := rfl
@[simp] theorem emitFrames_irqEn (fs : List Frame) : (emitFrames fs s).irqEn = s.irqEn := rfl
@[simp] theorem emitFrames_rxDrop (fs : List Frame) : (emitFrames fs s).rxDrop = s.rxDrop := rfl
@[simp] theorem emitFrames_tbl (fs : List Frame) : (emitFrames fs s).tbl = s.tbl := rfl
@[simp] theorem emitFrames_txbuf (fs : List Frame) : (emitFrames fs s).txbuf = s.txbuf := rfl
@[simp] theorem emitFrames_rxbuf (fs : List Frame) : (emitFrames fs s).rxbuf = s.rxbuf := rfl
@[simp] theorem emitFrames_rxcnt (fs : List Frame) : (emitFrames fs s).rxcnt = s.rxcnt := rfl
@[simp] theorem emitFrames_ctr (fs : List Frame) : (emitFrames fs s).ctr = s.ctr := rfl
@[simp] theorem emitFrames_last (fs : List Frame) : (emitFrames fs s).last = s.last := rfl
@[simp] theorem emitFrames_lastv (fs : List Frame) : (emitFrames fs s).lastv = s.lastv := rfl
@[simp] theorem emitFrames_fifo (fs : List Frame) : (emitFrames fs s).fifo = s.fifo := rfl
@[simp] theorem emitFrames_resp (fs : List Frame) : (emitFrames fs s).resp = s.resp := rfl
@[simp] theorem emitFrames_out (fs : List Frame) : (emitFrames fs s).out = s.out ++ fs := rfl
@[simp] theorem emitFrames_inputs (fs : List Frame) : (emitFrames fs s).inputs = s.inputs := rfl

/-! ## setSum -/

@[simp] theorem setSum_params (v : Byte) : (setSum v s).params = s.params := rfl
@[simp] theorem setSum_crc (v : Byte) : (setSum v s).crc = s.crc := rfl
@[simp] theorem setSum_sum (v : Byte) : (setSum v s).sum = v := rfl
@[simp] theorem setSum_cyc (v : Byte) : (setSum v s).cyc = s.cyc := rfl
@[simp] theorem setSum_phase (v : Byte) : (setSum v s).phase = s.phase := rfl
@[simp] theorem setSum_fam (v : Byte) : (setSum v s).fam = s.fam := rfl
@[simp] theorem setSum_sub (v : Byte) : (setSum v s).sub = s.sub := rfl
@[simp] theorem setSum_locked (v : Byte) : (setSum v s).locked = s.locked := rfl
@[simp] theorem setSum_status (v : Byte) : (setSum v s).status = s.status := rfl
@[simp] theorem setSum_err (v : Byte) : (setSum v s).err = s.err := rfl
@[simp] theorem setSum_irqEn (v : Byte) : (setSum v s).irqEn = s.irqEn := rfl
@[simp] theorem setSum_rxDrop (v : Byte) : (setSum v s).rxDrop = s.rxDrop := rfl
@[simp] theorem setSum_tbl (v : Byte) : (setSum v s).tbl = s.tbl := rfl
@[simp] theorem setSum_txbuf (v : Byte) : (setSum v s).txbuf = s.txbuf := rfl
@[simp] theorem setSum_rxbuf (v : Byte) : (setSum v s).rxbuf = s.rxbuf := rfl
@[simp] theorem setSum_rxcnt (v : Byte) : (setSum v s).rxcnt = s.rxcnt := rfl
@[simp] theorem setSum_ctr (v : Byte) : (setSum v s).ctr = s.ctr := rfl
@[simp] theorem setSum_last (v : Byte) : (setSum v s).last = s.last := rfl
@[simp] theorem setSum_lastv (v : Byte) : (setSum v s).lastv = s.lastv := rfl
@[simp] theorem setSum_fifo (v : Byte) : (setSum v s).fifo = s.fifo := rfl
@[simp] theorem setSum_resp (v : Byte) : (setSum v s).resp = some (okResponse (v.setWidth 16)) := rfl
@[simp] theorem setSum_out (v : Byte) : (setSum v s).out = s.out := rfl
@[simp] theorem setSum_inputs (v : Byte) : (setSum v s).inputs = s.inputs := rfl

/-! ## observe -/

@[simp] theorem observe_params (i : Slot) (v : Counter) : (observe i v s).params = s.params := rfl
@[simp] theorem observe_crc (i : Slot) (v : Counter) : (observe i v s).crc = s.crc := rfl
@[simp] theorem observe_sum (i : Slot) (v : Counter) : (observe i v s).sum = s.sum := rfl
@[simp] theorem observe_cyc (i : Slot) (v : Counter) : (observe i v s).cyc = s.cyc := rfl
@[simp] theorem observe_phase (i : Slot) (v : Counter) : (observe i v s).phase = s.phase := rfl
@[simp] theorem observe_fam (i : Slot) (v : Counter) : (observe i v s).fam = s.fam := rfl
@[simp] theorem observe_sub (i : Slot) (v : Counter) : (observe i v s).sub = s.sub := rfl
@[simp] theorem observe_locked (i : Slot) (v : Counter) : (observe i v s).locked = s.locked := rfl
@[simp] theorem observe_status (i : Slot) (v : Counter) : (observe i v s).status = s.status := rfl
@[simp] theorem observe_err (i : Slot) (v : Counter) : (observe i v s).err = s.err := rfl
@[simp] theorem observe_irqEn (i : Slot) (v : Counter) : (observe i v s).irqEn = s.irqEn := rfl
@[simp] theorem observe_rxDrop (i : Slot) (v : Counter) : (observe i v s).rxDrop = s.rxDrop := rfl
@[simp] theorem observe_tbl (i : Slot) (v : Counter) : (observe i v s).tbl = s.tbl := rfl
@[simp] theorem observe_txbuf (i : Slot) (v : Counter) : (observe i v s).txbuf = s.txbuf := rfl
@[simp] theorem observe_rxbuf (i : Slot) (v : Counter) : (observe i v s).rxbuf = s.rxbuf := rfl
@[simp] theorem observe_rxcnt (i : Slot) (v : Counter) : (observe i v s).rxcnt = s.rxcnt := rfl
@[simp] theorem observe_ctr (i : Slot) (v : Counter) : (observe i v s).ctr = s.ctr := rfl
@[simp] theorem observe_last (i : Slot) (v : Counter) : (observe i v s).last = s.last.set i v := rfl
@[simp] theorem observe_lastv (i : Slot) (v : Counter) : (observe i v s).lastv = s.lastv.set i true := rfl
@[simp] theorem observe_fifo (i : Slot) (v : Counter) : (observe i v s).fifo = s.fifo := rfl
@[simp] theorem observe_resp (i : Slot) (v : Counter) : (observe i v s).resp = s.resp := rfl
@[simp] theorem observe_out (i : Slot) (v : Counter) : (observe i v s).out = s.out := rfl
@[simp] theorem observe_inputs (i : Slot) (v : Counter) : (observe i v s).inputs = s.inputs := rfl

/-! ## storeFrame -/

@[simp] theorem storeFrame_params (i : Slot) (f : RxFrame) : (storeFrame i f s).params = s.params := rfl
@[simp] theorem storeFrame_crc (i : Slot) (f : RxFrame) : (storeFrame i f s).crc = s.crc := rfl
@[simp] theorem storeFrame_sum (i : Slot) (f : RxFrame) : (storeFrame i f s).sum = s.sum := rfl
@[simp] theorem storeFrame_cyc (i : Slot) (f : RxFrame) : (storeFrame i f s).cyc = s.cyc := rfl
@[simp] theorem storeFrame_phase (i : Slot) (f : RxFrame) : (storeFrame i f s).phase = s.phase := rfl
@[simp] theorem storeFrame_fam (i : Slot) (f : RxFrame) : (storeFrame i f s).fam = s.fam := rfl
@[simp] theorem storeFrame_sub (i : Slot) (f : RxFrame) : (storeFrame i f s).sub = s.sub := rfl
@[simp] theorem storeFrame_locked (i : Slot) (f : RxFrame) : (storeFrame i f s).locked = s.locked := rfl
@[simp] theorem storeFrame_status (i : Slot) (f : RxFrame) : (storeFrame i f s).status = s.status := rfl
@[simp] theorem storeFrame_err (i : Slot) (f : RxFrame) : (storeFrame i f s).err = s.err := rfl
@[simp] theorem storeFrame_irqEn (i : Slot) (f : RxFrame) : (storeFrame i f s).irqEn = s.irqEn := rfl
@[simp] theorem storeFrame_rxDrop (i : Slot) (f : RxFrame) : (storeFrame i f s).rxDrop = s.rxDrop := rfl
@[simp] theorem storeFrame_tbl (i : Slot) (f : RxFrame) : (storeFrame i f s).tbl = s.tbl := rfl
@[simp] theorem storeFrame_txbuf (i : Slot) (f : RxFrame) : (storeFrame i f s).txbuf = s.txbuf := rfl
@[simp] theorem storeFrame_rxbuf (i : Slot) (f : RxFrame) : (storeFrame i f s).rxbuf = s.rxbuf.set i (overlay s.rxbuf[i] f.data f.len) := rfl
@[simp] theorem storeFrame_rxcnt (i : Slot) (f : RxFrame) : (storeFrame i f s).rxcnt = s.rxcnt.set i (s.rxcnt[i] + 1) := rfl
@[simp] theorem storeFrame_ctr (i : Slot) (f : RxFrame) : (storeFrame i f s).ctr = s.ctr := rfl
@[simp] theorem storeFrame_last (i : Slot) (f : RxFrame) : (storeFrame i f s).last = s.last := rfl
@[simp] theorem storeFrame_lastv (i : Slot) (f : RxFrame) : (storeFrame i f s).lastv = s.lastv := rfl
@[simp] theorem storeFrame_fifo (i : Slot) (f : RxFrame) : (storeFrame i f s).fifo = s.fifo := rfl
@[simp] theorem storeFrame_resp (i : Slot) (f : RxFrame) : (storeFrame i f s).resp = s.resp := rfl
@[simp] theorem storeFrame_out (i : Slot) (f : RxFrame) : (storeFrame i f s).out = s.out := rfl
@[simp] theorem storeFrame_inputs (i : Slot) (f : RxFrame) : (storeFrame i f s).inputs = s.inputs := rfl

/-! ## dropFrame -/

@[simp] theorem dropFrame_params : (dropFrame s).params = s.params := rfl
@[simp] theorem dropFrame_crc : (dropFrame s).crc = s.crc := rfl
@[simp] theorem dropFrame_sum : (dropFrame s).sum = s.sum := rfl
@[simp] theorem dropFrame_cyc : (dropFrame s).cyc = s.cyc := rfl
@[simp] theorem dropFrame_phase : (dropFrame s).phase = s.phase := rfl
@[simp] theorem dropFrame_fam : (dropFrame s).fam = s.fam := rfl
@[simp] theorem dropFrame_sub : (dropFrame s).sub = s.sub := rfl
@[simp] theorem dropFrame_locked : (dropFrame s).locked = s.locked := rfl
@[simp] theorem dropFrame_status : (dropFrame s).status = s.status ||| statusBit RxEvent.rxDrop.code := rfl
@[simp] theorem dropFrame_err : (dropFrame s).err = s.err := rfl
@[simp] theorem dropFrame_irqEn : (dropFrame s).irqEn = s.irqEn := rfl
@[simp] theorem dropFrame_rxDrop : (dropFrame s).rxDrop = dropCount s.rxDrop := rfl
@[simp] theorem dropFrame_tbl : (dropFrame s).tbl = s.tbl := rfl
@[simp] theorem dropFrame_txbuf : (dropFrame s).txbuf = s.txbuf := rfl
@[simp] theorem dropFrame_rxbuf : (dropFrame s).rxbuf = s.rxbuf := rfl
@[simp] theorem dropFrame_rxcnt : (dropFrame s).rxcnt = s.rxcnt := rfl
@[simp] theorem dropFrame_ctr : (dropFrame s).ctr = s.ctr := rfl
@[simp] theorem dropFrame_last : (dropFrame s).last = s.last := rfl
@[simp] theorem dropFrame_lastv : (dropFrame s).lastv = s.lastv := rfl
@[simp] theorem dropFrame_fifo : (dropFrame s).fifo = s.fifo := rfl
@[simp] theorem dropFrame_resp : (dropFrame s).resp = s.resp := rfl
@[simp] theorem dropFrame_out : (dropFrame s).out = s.out := rfl
@[simp] theorem dropFrame_inputs : (dropFrame s).inputs = s.inputs := rfl

/-! ## presentCommand -/

@[simp] theorem presentCommand_params (w : Word) : (presentCommand w s).params = s.params := rfl
@[simp] theorem presentCommand_crc (w : Word) : (presentCommand w s).crc = s.crc := rfl
@[simp] theorem presentCommand_sum (w : Word) : (presentCommand w s).sum = s.sum := rfl
@[simp] theorem presentCommand_cyc (w : Word) : (presentCommand w s).cyc = s.cyc := rfl
@[simp] theorem presentCommand_phase (w : Word) : (presentCommand w s).phase = s.phase := rfl
@[simp] theorem presentCommand_fam (w : Word) : (presentCommand w s).fam = s.fam := rfl
@[simp] theorem presentCommand_sub (w : Word) : (presentCommand w s).sub = s.sub := rfl
@[simp] theorem presentCommand_locked (w : Word) : (presentCommand w s).locked = s.locked := rfl
@[simp] theorem presentCommand_status (w : Word) : (presentCommand w s).status = s.status := rfl
@[simp] theorem presentCommand_err (w : Word) : (presentCommand w s).err = s.err := rfl
@[simp] theorem presentCommand_irqEn (w : Word) : (presentCommand w s).irqEn = s.irqEn := rfl
@[simp] theorem presentCommand_rxDrop (w : Word) : (presentCommand w s).rxDrop = s.rxDrop := rfl
@[simp] theorem presentCommand_tbl (w : Word) : (presentCommand w s).tbl = s.tbl := rfl
@[simp] theorem presentCommand_txbuf (w : Word) : (presentCommand w s).txbuf = s.txbuf := rfl
@[simp] theorem presentCommand_rxbuf (w : Word) : (presentCommand w s).rxbuf = s.rxbuf := rfl
@[simp] theorem presentCommand_rxcnt (w : Word) : (presentCommand w s).rxcnt = s.rxcnt := rfl
@[simp] theorem presentCommand_ctr (w : Word) : (presentCommand w s).ctr = s.ctr := rfl
@[simp] theorem presentCommand_last (w : Word) : (presentCommand w s).last = s.last := rfl
@[simp] theorem presentCommand_lastv (w : Word) : (presentCommand w s).lastv = s.lastv := rfl
@[simp] theorem presentCommand_fifo (w : Word) : (presentCommand w s).fifo = s.fifo := rfl
@[simp] theorem presentCommand_resp (w : Word) : (presentCommand w s).resp = s.resp := rfl
@[simp] theorem presentCommand_out (w : Word) : (presentCommand w s).out = s.out := rfl
@[simp] theorem presentCommand_inputs (w : Word) : (presentCommand w s).inputs = .command w :: s.inputs := rfl

end Sys2Proof.Machine
end

