-- ==== Sys2Proof/Laws/Ops.lean ====
section
/-! SUPPORT. One lemma for each shared operation that says once what it does, for proofs to cite instead of unfolding
it. -/

namespace Sys2Proof.Machine

/-! ## Ending a command -/

/-- What `fail` leaves, in the numbers of R291. -/
theorem fail_eq_failed (e : ErrCode) (s : State) : fail e s = failed e.code.toNat s := by
  cases e <;> rfl

/-- The response of a success, in the numbers of R83. -/
theorem okResponse_eq_okWord (d : BitVec 16) : okResponse d = okWord d.toNat := by
  apply BitVec.eq_of_toNat_eq
  have := d.isLt
  simp only [okResponse, okWord, BitVec.toNat_append, BitVec.toNat_ofNat]
  simp only [Nat.reducePow, Nat.zero_mod, Nat.zero_shiftLeft, Nat.zero_or]
  omega

/-- What `respond` leaves, in the numbers of R83. -/
theorem respond_eq (d : BitVec 16) (s : State) : respond d s = { s with resp := some (okWord d.toNat) } := by
  simp only [respond, okResponse_eq_okWord]

/-! ## Slot storage -/

/-- A byte of the templates after one is written. -/
theorem writeTx_byte (i i' : Slot) (j j' : ByteIndex) (b : Byte) (s : State) :
    (writeTx i j b s).txbuf[i'][j'] = if i' = i ∧ j' = j then b else s.txbuf[i'][j'] := by
  by_cases hi : i = i'
  · subst hi
    by_cases hj : j = j'
    · subst hj; simp
    · have : j.val ≠ j'.val := fun h => hj (Fin.ext h)
      simp [this, Ne.symm hj]
  · have : i.val ≠ i'.val := fun h => hi (Fin.ext h)
    simp [this, Ne.symm hi]

/-- A template after one is written whole. -/
theorem set_slot {α : Type} (v : Vector α 8) (i i' : Slot) (x : α) :
    (v.set i x)[i'] = if i' = i then x else v[i'] := by
  by_cases hi : i = i'
  · subst hi; simp
  · have : i.val ≠ i'.val := fun h => hi (Fin.ext h)
    simp [this, Ne.symm hi]

/-! ## The CRC -/

/-- Feeding the register's own complement empties it of its past (R118). -/
theorem crc8Step_xor_self (r x : Byte) : crc8Step r (r ^^^ x) = Nat.repeat crcShift 8 x := by
  simp only [crc8Step, ← BitVec.xor_assoc, BitVec.xor_self, BitVec.zero_xor]

theorem crcFeed_append (r : Byte) (d d' : List Byte) : crcFeed r (d ++ d') = crcFeed (crcFeed r d) d' := by
  simp [crcFeed]

/-! ## The modular sum -/

/-- The value the sum starts from, as a sum modulo 256 (R130). -/
theorem key_toNat (id : BitVec 11) : (key id).toNat = (id.toNat % 256 + id.toNat / 256) % 256 := by
  have := id.isLt
  simp only [key, BitVec.toNat_add, BitVec.extractLsb'_toNat, BitVec.toNat_setWidth, Nat.shiftRight_eq_div_pow,
    Nat.reducePow, Nat.div_one]
  have h : id.toNat / 256 < 8 := by omega
  rw [Nat.mod_eq_of_lt h, Nat.mod_eq_of_lt (by omega : id.toNat / 256 < 256)]

/-- Adding bytes one by one adds their sum modulo 256 (R131). -/
theorem foldl_add_toNat (d : List Byte) (a : Byte) :
    (d.foldl (· + ·) a).toNat = (a.toNat + (d.map BitVec.toNat).sum) % 256 := by
  induction d generalizing a with
  | nil => have := a.isLt; simp; omega
  | cons b d ih =>
    rw [List.foldl_cons, ih]
    simp only [BitVec.toNat_add, List.map_cons, List.sum_cons]
    omega

/-! ## Frames -/

@[simp] theorem setField_length (d : List Byte) (j lsb w : Nat) (x : Byte) :
    (setField d j lsb w x).length = d.length := by simp [setField]

@[simp] theorem authenticate_length (ps : Params) (e : TblEntry) (d : List Byte) (v : Counter) (p : Fin 2) :
    (authenticate ps e d v p).length = d.length := by
  unfold authenticate; split <;> simp

@[simp] theorem placeCmd_length (e : TblEntry) (sel : CmdSel) (d : List Byte) :
    (placeCmd e sel d).length = d.length := by
  cases sel <;> simp [placeCmd]

@[simp] theorem placeCtr_length (e : TblEntry) (v : Counter) (d : List Byte) :
    (placeCtr e v d).length = d.length := by
  unfold placeCtr; split <;> simp

/-- A payload has the length of its slot (R184). -/
theorem build_length (s : State) (slot : Slot) (v : Counter) (sel : CmdSel) (p : Fin 2) :
    (build s slot v sel p).length = min s.tbl[slot].len.toNat 8 := by
  simp [build]

/-- The buses of a mask (R182). -/
theorem mem_buses (mask : BitVec 3) (b : BitVec 2) :
    b ∈ buses mask ↔ b.toNat ≤ 2 ∧ mask.getLsbD b.toNat = true := by
  revert mask b; decide

theorem buses_length_le (mask : BitVec 3) : (buses mask).length ≤ 3 := by
  revert mask; decide

theorem buses_length_pos (mask : BitVec 3) (h : mask ≠ 0) : 1 ≤ (buses mask).length := by
  revert mask; decide

/-- One frame for each bus. -/
theorem onBuses_eq_framed (s : State) (slot : Slot) (v : Counter) (sel : CmdSel) (p : Fin 2) :
    onBuses s slot v sel p = framed s.tbl[slot] (build s slot v sel p) := rfl

@[simp] theorem framed_length (e : TblEntry) (d : List Byte) : (framed e d).length = (buses e.txMask).length := by
  simp [framed]

/-- The number of frames of a run of payloads, one per counter (R200). -/
theorem flatMap_onBuses_length (s : State) (slot : Slot) (sel : CmdSel) (p : Fin 2) (q : List Counter) :
    (q.flatMap fun v => onBuses s slot v sel p).length = q.length * (buses s.tbl[slot].txMask).length := by
  induction q with
  | nil => simp
  | cons v q ih =>
    rw [List.flatMap_cons, List.length_append, ih, onBuses_eq_framed, framed_length, List.length_cons, Nat.succ_mul]
    omega

/-- What a successful FRM.TX writes besides the stream, field by field (R190, R192, R196, R197). -/
theorem afterTx_eq (slot : Slot) (s : State) : afterTx slot s = { s with
    ctr := if s.tbl[slot].cls = .other ∧ s.tbl[slot].ctrEn = true then s.ctr.set slot (s.ctr[slot] + 1) else s.ctr
    fifo := if s.tbl[slot].cls = .long then s.fifo.set slot [] else s.fifo
    phase := if s.tbl[slot].cls = .other then s.phase else s.tbl[slot].cls.bits } := by
  unfold afterTx setCtr setFifo
  rcases h : s.tbl[slot].cls with _ | _ | _ | _ <;> cases h2 : s.tbl[slot].ctrEn <;> rfl

/-- The whole effect of FRM.TX where no check fails (R186). -/
theorem execFrmTx_of_ok {slot : Slot} {s : State} (h : txError s slot = none) :
    execFrmTx slot s = .next { afterTx slot s with
      out := s.out ++ txFrames s slot
      resp := some (okResponse (BitVec.ofNat 16 (txFrames s slot).length)) } := by
  simp only [execFrmTx, h, respond, emitFrames, afterTx_eq]

/-! ## Reception -/

/-- The matching of R203, as a proposition. -/
theorem rxMatches_iff (s : State) (f : RxFrame) (i : Slot) : rxMatches s f i = true ↔ SlotTakes s f i := by
  have hb : maskHas s.tbl[i].rxMask f.bus = true ↔
      f.bus.toNat ≤ 2 ∧ s.tbl[i].rxMask.getLsbD f.bus.toNat = true := by
    generalize s.tbl[i].rxMask = m
    generalize f.bus = b
    revert m b; decide
  simp only [rxMatches, Bool.and_eq_true, beq_iff_eq, hb, SlotTakes, and_assoc]

/-- No slot is found exactly when none matches (R205). -/
theorem rxSlot_none_iff (s : State) (f : RxFrame) : rxSlot s f = none ↔ ∀ i, ¬ SlotTakes s f i := by
  simp only [rxSlot, List.find?_eq_none, List.mem_finRange, true_implies, rxMatches_iff]

/-- A slot that is found matches (R203). -/
theorem rxSlot_some {s : State} {f : RxFrame} {i : Slot} (h : rxSlot s f = some i) : SlotTakes s f i :=
  (rxMatches_iff s f i).1 (List.find?_some h)

/-- `min(255, RX_DROP + 1)` (R32). -/
theorem dropCount_eq (n : BitVec 8) : dropCount n = BitVec.ofNat 8 (min 255 (n.toNat + 1)) := by
  revert n; decide

/-- A byte of the received payloads after a frame is stored (R207). -/
theorem overlay_byte (old new : Vector Byte 8) (len : BitVec 4) (j : ByteIndex) :
    (overlay old new len)[j] = if j.val < len.toNat then new[j] else old[j] := by
  simp [overlay]

/-- The whole effect of capturing a counter, field by field (R208). -/
theorem captureCtr_eq (slot : Slot) (f : RxFrame) (s : State) :
    captureCtr slot f s =
      let e := s.tbl[slot]
      let v := frameCtr e f
      let full := s.fifo[slot].length = s.params.fifoDepth
      { s with
        last := if e.ctrEn then s.last.set slot v else s.last
        lastv := if e.ctrEn then s.lastv.set slot true else s.lastv
        fifo := if e.ctrEn = true ∧ e.cls = .long then
            s.fifo.set slot ((if full then s.fifo[slot].tail else s.fifo[slot]) ++ [v]) else s.fifo
        status := if e.ctrEn = true ∧ e.cls = .long ∧ full then s.status ||| 0x0800#16 else s.status } := by
  unfold captureCtr
  by_cases h1 : s.tbl[slot].ctrEn = true
  · by_cases h2 : s.tbl[slot].cls = .long
    · by_cases h3 : s.fifo[slot].length = s.params.fifoDepth
      · simp only [h1, h2, h3, if_true, true_and, pushCtr, observe, raise, setFifo]; rfl
      · simp only [h1, h2, h3, if_true, if_false, true_and, and_false, pushCtr, observe, setFifo]
    · simp only [h1, h2, if_true, if_false, and_false, false_and, observe]
  · simp only [h1, if_false, false_and, Bool.false_eq_true]

/-- The whole effect of a frame stored and its counter captured, field by field (R207, R208). -/
theorem captureCtr_storeFrame_eq (slot : Slot) (f : RxFrame) (s : State) :
    captureCtr slot f (storeFrame slot f s) = { s with
      rxbuf := s.rxbuf.set slot (overlay s.rxbuf[slot] f.data f.len)
      rxcnt := s.rxcnt.set slot (s.rxcnt[slot] + 1)
      last := if s.tbl[slot].ctrEn then s.last.set slot (frameCtr s.tbl[slot] f) else s.last
      lastv := if s.tbl[slot].ctrEn then s.lastv.set slot true else s.lastv
      fifo := if s.tbl[slot].ctrEn = true ∧ s.tbl[slot].cls = .long then
          s.fifo.set slot ((if s.fifo[slot].length = s.params.fifoDepth then s.fifo[slot].tail else s.fifo[slot]) ++
            [frameCtr s.tbl[slot] f]) else s.fifo
      status := if s.tbl[slot].ctrEn = true ∧ s.tbl[slot].cls = .long ∧ s.fifo[slot].length = s.params.fifoDepth
        then s.status ||| 0x0800#16 else s.status } := by
  rw [captureCtr_eq]; rfl

/-- The three things one arrival can do (R202): the frame is dropped and counted, dropped for its length, or stored
in a slot that matches it. -/
theorem demux_cases (f : RxFrame) (s : State) :
    demux f s = dropFrame s ∨
    (s.locked = true ∧ demux f s = raise .rxLen s) ∨
    ∃ i, s.locked = true ∧ SlotTakes s f i ∧ f.len = s.tbl[i].len ∧
      demux f s = captureCtr i f (storeFrame i f s) := by
  unfold demux
  by_cases hl : s.locked = false
  · rw [if_pos hl]; exact .inl rfl
  · rw [if_neg hl]
    have hl : s.locked = true := by simpa using hl
    cases h : rxSlot s f with
    | none => exact .inl rfl
    | some i =>
      by_cases hn : f.len = s.tbl[i].len
      · simp only [ne_eq, hn, not_true_eq_false, if_false]
        exact .inr (.inr ⟨i, hl, rxSlot_some h, rfl, rfl⟩)
      · simp only [ne_eq, hn, not_false_eq_true, if_true]
        exact .inr (.inl ⟨hl, trivial⟩)

/-! ## The table -/

/-- What a valid table says of each valid entry (R247). -/
theorem validTable_entry {s : State} (h : validTable s = true) (i : Slot) (hv : s.tbl[i].valid = true) :
    s.tbl[i].StructureOk ∧ s.tbl[i].ClassOk ∧ s.tbl[i].VariantOk s.fam := by
  rw [validTable, Bool.and_eq_true, decide_eq_true_iff] at h
  have := h.1 i hv
  simp only [TblEntry.entryOk, Bool.and_eq_true, decide_eq_true_iff] at this
  exact ⟨this.1.1, this.1.2, this.2⟩

/-- What a valid table says of each two valid entries (R251). -/
theorem validTable_pair {s : State} (h : validTable s = true) (i j : Slot) (hij : i ≠ j)
    (hi : s.tbl[i].valid = true) (hj : s.tbl[j].valid = true) : ¬ s.tbl[i].Collides s.tbl[j] := by
  rw [validTable, Bool.and_eq_true, decide_eq_true_iff, decide_eq_true_iff] at h
  exact h.2 i j hij hi hj

/-- The conditions no check of FRM.TX fails under (R186). -/
theorem txError_none {s : State} {i : Slot} (h : txError s i = none) :
    TxReady s i ∧ (s.tbl[i].cls = .other ∨ s.phase.toNat ≤ s.tbl[i].cls.bits.toNat) ∧
    (s.tbl[i].cls = .steer → s.cyc.getLsbD 0 = false) ∧
    (s.tbl[i].cls = .long → s.fam = .a → s.fifo[i] ≠ []) ∧
    (s.tbl[i].cls = .cancel → s.lastv[i] = true) := by
  unfold txError at h
  simp only [BitVec.lt_def] at h
  split at h
  · cases h
  split at h
  · cases h
  split at h
  · cases h
  split at h
  · cases h
  split at h
  · cases h
  split at h
  · cases h
  rename_i h1 h2 h3 h4 h5 h6
  simp only [Bool.not_eq_false, not_or, not_and, ne_eq, Nat.not_lt] at h1 h2 h3 h4 h5 h6
  refine ⟨⟨h1, h2.1, h2.2⟩, ?_, fun hc => by simpa using h4 hc, h5, h6⟩
  by_cases hc : s.tbl[i].cls = .other
  · exact .inl hc
  · exact .inr (h3 hc)

/-! ## Steps -/

/-- The words of one row's FAM and FN, for a row whose format reserves exactly the bits `zeros`. -/
theorem wordsRun_of_row (row : OpRow) (op : BitVec 8) (zeros : Word) (make : Word → Instr)
    (hfind : opcodeMap.find? (fun r => r.fam == op.extractLsb' 4 4 && r.fn == op.extractLsb' 0 4) = some row)
    (hcover : maskCovers row.format zeros = true) (hmake : ∀ w, row.make w = make w)
    (hill : ∀ w, (make w).wellFormed = false → ∀ s, exec (make w) s = .next (failed 1 s)) :
    WordsRun op zeros make := by
  intro w s rest hop hs
  have hd : decode w = if w &&& zeros = 0#32 then
      (if (make w).wellFormed then .ok (make w) else .error row.format.operandError)
      else .error .reservedBits := by
    unfold decode
    rw [famOf_of_byte hop, fnOf_of_byte hop, hfind]
    simp only [reservedClear_iff_mask row.format zeros w hcover (zeroBits_le _), hmake]
  simp only [step, takeInput, hs, applyInput, runCommand, hd, fail_eq_failed]
  constructor
  · intro h
    rw [if_pos h]
    cases hw : (make w).wellFormed
    · simp only [hill w hw]; rfl
    · rfl
  · intro h
    rw [if_neg h]
    rfl

end Sys2Proof.Machine
end

