-- ==== Sys2Proof/Laws/Exec.lean ====
section
/-! SUPPORT. What each command can do to the state, said once: the relation `Effect`, and the inversion of `exec` and
of a command step. -/

namespace Sys2Proof.Machine

/-- `Effect i s t`: command `i` takes `s` to `t`. A command fails with one of its errors, only reads, or has the
effect its rule gives it. -/
inductive Effect : Instr → State → State → Prop
  | failed (i : Instr) (s : State) (e : ErrCode) (h : e.code.toNat ∈ possibleErrors i) : Effect i s (fail e s)
  | read (i : Instr) (s : State) (d : BitVec 16) : Effect i s (respond d s)
  | tick (s : State) : Effect .tick s (respond 0 { s with cyc := s.cyc + 1, phase := 0 })
  | lock (s : State) (hl : s.locked = false) (hv : validTable s = true) :
      Effect .lock s (respond 0 { s with locked := true })
  | setvar (s : State) (v : BitVec 8) (hl : s.locked = false) (hv : v.toNat = 0 ∨ v.toNat = 1 ∨ v.toNat = 3) :
      Effect (.setvar v) s
        (respond 0 { s with fam := if v.getLsbD 0 then .b else .a, sub := v.getLsbD 1 })
  | clrstat (s : State) (m : BitVec 16) :
      Effect (.clrstat m) s (respond 0 { s with status := s.status &&& ~~~m, err := 0 })
  | setirq (s : State) (m : BitVec 16) : Effect (.setirq m) s (respond 0 { s with irqEn := m })
  | crcInit (s : State) : Effect .crcInit s (respond 0 { s with crc := s.params.crc8Init })
  | crcFeed (s : State) (b : BitVec 8) :
      Effect (.crcFeed b) s (respond (crcData (crc8Step s.crc b)) { s with crc := crc8Step s.crc b })
  | crcBuf (s : State) (i : Slot) (src : BufSrc) (k : BitVec 4) (c : Byte)
      (h : c = crcFeed s.params.crc8Init (leading (s.buffer src i) k)) :
      Effect (.crcBuf i src k) s (respond (crcData c) { s with crc := c })
  | sumInit (s : State) (id : BitVec 11) : Effect (.sumInit id) s (setSum (key id) s)
  | sumFeed (s : State) (b : BitVec 8) : Effect (.sumFeed b) s (setSum (s.sum + b) s)
  | sumBuf (s : State) (i : Slot) (src : BufSrc) (k : BitVec 4) (hv : s.tbl[i].valid = true) :
      Effect (.sumBuf i src k) s (setSum (sum8 s.tbl[i].id (leading (s.buffer src i) k)) s)
  | cntLd (s : State) (i : Slot) (v : BitVec 4) : Effect (.cntLd i v) s (respond 0 (setCtr i v s))
  | cntInc (s : State) (i : Slot) (v : Counter) (hv : v = s.ctr[i] + 1) :
      Effect (.cntInc i) s (respond (v.setWidth 16) (setCtr i v s))
  | cntPop (s : State) (i : Slot) (v : Counter) (q : List Counter) (hq : s.fifo[i] = v :: q) :
      Effect (.cntPop i) s (respond ((1#1 ++ v).setWidth 16) (setFifo i q s))
  | bufWr (s : State) (i : Slot) (j : ByteIndex) (b : BitVec 8) :
      Effect (.bufWr i j b) s (respond 0 (writeTx i j b s))
  | bufSnap (s : State) (i : Slot) : Effect (.bufSnap i) s (respond 0 (loadTx i s.rxbuf[i] s))
  | bufClr (s : State) (i : Slot) : Effect (.bufClr i) s (respond 0 (loadTx i (Vector.replicate 8 0x00) s))
  | frmTx (s : State) (i : Slot) (h : txError s i = none) :
      Effect (.frmTx i) s
        (respond (BitVec.ofNat 16 (txFrames s i).length) (emitFrames (txFrames s i) (afterTx i s)))
  | cfgWr (s : State) (i : Slot) (f : BitVec 4) (v : BitVec 12) (hl : s.locked = false)
      (hv : legalValue f v = true) :
      Effect (.cfgWr i f v) s (respond 0 { s with tbl := s.tbl.set i (s.tbl[i].writeField f v) })

/-- The errors of FRM.TX (R293). -/
theorem txError_mem {s : State} {i : Slot} {e : ErrCode} (h : txError s i = some e) :
    e.code.toNat ∈ possibleErrors (.frmTx i) := by
  simp only [txError] at h
  repeat' split at h
  all_goals cases h
  all_goals simp [possibleErrors, ErrCode.code]

/-- SETVAR takes exactly the values 0, 1 and 3 (R273). -/
theorem setvar_illegal_iff (v : BitVec 8) :
    (v.extractLsb' 2 6 ≠ 0 ∨ v = 0x02#8) ↔ (v.toNat ≠ 0 ∧ v.toNat ≠ 1 ∧ v.toNat ≠ 3) := by
  revert v; decide

/-- Every result of `exec` is an effect of its command. -/
theorem exec_effect {i : Instr} {s t : State} (h : exec i s = .next t) : Effect i s t := by
  have eq : ∀ {a b : State}, (Host.Outcome.next a : Result) = .next b → b = a := by
    intro a b h; injection h with h; exact h.symm
  cases i
  case lock =>
    simp only [exec, execLock] at h
    split at h
    · rw [eq h]; exact .failed _ _ .locked (by simp [possibleErrors, ErrCode.code])
    split at h
    · rw [eq h]; exact .failed _ _ .cfg (by simp [possibleErrors, ErrCode.code])
    · rename_i h1 h2
      rw [eq h]; exact .lock s (by simpa using h1) (by simpa using h2)
  case setvar v =>
    simp only [exec, execSetvar] at h
    split at h
    · rw [eq h]; exact .failed _ _ .locked (by simp [possibleErrors, ErrCode.code])
    split at h
    · rw [eq h]; exact .failed _ _ .badVal (by simp [possibleErrors, ErrCode.code])
    · rename_i h1 h2
      rw [setvar_illegal_iff] at h2
      rw [eq h]; exact .setvar s v (by simpa using h1) (by omega)
  case crcBuf i src k =>
    simp only [exec, execCrcBuf] at h
    split at h
    · rw [eq h]; exact .crcBuf s i src k _ rfl
    · rw [eq h]; exact .failed _ _ .illegal (by simp [possibleErrors, ErrCode.code])
  case sumBuf i src k =>
    simp only [exec, execSumBuf] at h
    split at h
    · rw [eq h]; exact .failed _ _ .illegal (by simp [possibleErrors, ErrCode.code])
    split at h
    · rw [eq h]; exact .failed _ _ .slot (by simp [possibleErrors, ErrCode.code])
    · rename_i h1
      rw [eq h]; exact .sumBuf s i src k (by simpa using h1)
  case cntInc i => rw [eq h]; exact .cntInc s i _ rfl
  case cntPop i =>
    simp only [exec, execCntPop] at h
    split at h
    · rename_i v q hq
      rw [eq h]; exact .cntPop s i v q hq
    · rw [eq h]; exact .read _ _ _
  case frmTx i =>
    simp only [exec, execFrmTx] at h
    split at h
    · rename_i e he
      rw [eq h]; exact .failed _ _ e (txError_mem he)
    · rename_i he
      rw [eq h]; exact .frmTx s i he
  case cfgWr i f v =>
    simp only [exec, execCfgWr] at h
    split at h
    · rw [eq h]; exact .failed _ _ .illegal (by simp [possibleErrors, ErrCode.code])
    split at h
    · rw [eq h]; exact .failed _ _ .locked (by simp [possibleErrors, ErrCode.code])
    split at h
    · rw [eq h]; exact .failed _ _ .badVal (by simp [possibleErrors, ErrCode.code])
    · rename_i h1 h2
      rw [eq h]; exact .cfgWr s i f v (by simpa using h1) (by simpa using h2)
  case cfgRd i f =>
    simp only [exec, execCfgRd] at h
    split at h
    · rw [eq h]; exact .failed _ _ .illegal (by simp [possibleErrors, ErrCode.code])
    · rw [eq h]; exact .read _ _ _
  all_goals
    rw [eq h]
    first | exact .read _ _ _ | constructor

/-- Every command step is an effect of the command its word decodes to, or E_ILLEGAL. -/
theorem step_command {s t : State} {w : Word} {rest : List Input} (hs : s.inputs = .command w :: rest)
    (h : step s = .next t) :
    (∃ i, decode w = .ok i ∧ Effect i { s with inputs := rest } t) ∨
    ((∃ e, decode w = .error e) ∧ t = fail .illegal { s with inputs := rest }) := by
  simp only [step, takeInput, hs, applyInput, runCommand] at h
  cases hd : decode w with
  | ok i =>
    rw [hd] at h
    exact .inl ⟨i, rfl, exec_effect h⟩
  | error e =>
    rw [hd] at h
    injection h with h
    exact .inr ⟨⟨e, rfl⟩, h.symm⟩

end Sys2Proof.Machine
end

