-- ==== Sys2Proof/Laws/PerInstr.lean ====
section
/-! SUPPORT. One statement about every command, command by command: its word carries the fixed bits of its row of the
opcode map (R96). -/

namespace Sys2Proof.Laws

/-- The word of a command matches the fixed bits of the row with its mnemonic (R96). -/
def OpcodeOf.Statement (i : Instr) : Prop :=
  ∃ row ∈ opcodeMap, row.mnemonic = i.mnemonic ∧ encode i &&& row.maskWord = row.matchWord

/-- A word with the FAM and FN of a row and its reserved bits clear matches the row's fixed bits. -/
theorem masked_eq {f : Format} {w m : Word} {fam fn : BitVec 4}
    (hm : maskCovers f (m &&& 0x00FFFFFF#32) = true) (htop : m.extractLsb' 24 8 = 0xFF#8)
    (hfam : famOf w = fam) (hfn : fnOf w = fn) (hc : f.reservedClear w = true) :
    w &&& m = fam ++ fn ++ 0#24 := by
  have hlow := (and_mask_eq_zero_iff w _).1 ((reservedClear_iff_mask f _ w hm (zeroBits_le f)).1 hc)
  apply BitVec.eq_of_getLsbD_eq
  intro b hb
  by_cases h24 : b < 24
  · have h0 : (0x00FFFFFF#32).getLsbD b = true := by
      clear * - h24
      revert b; decide
    have hw := hlow b hb
    simp only [BitVec.getLsbD_and, h0, Bool.and_true] at hw
    simp only [BitVec.getLsbD_and, BitVec.getLsbD_append, h24, if_true, BitVec.getLsbD_zero]
    cases hmb : m.getLsbD b
    · simp
    · simp [hw hmb]
  · have h1 : m.getLsbD b = true := by
      have h := congrArg (fun x => x.getLsbD (b - 24)) htop
      have h8 : b - 24 < 8 := by omega
      have hff : (0xFF#8).getLsbD (b - 24) = true := by
        generalize b - 24 = c at h8
        clear * - h8
        revert c; decide
      simp only [BitVec.getLsbD_extractLsb', h8, decide_true, Bool.true_and, hff] at h
      rwa [show 24 + (b - 24) = b by omega] at h
    subst hfam hfn
    simp only [BitVec.getLsbD_and, h1, Bool.and_true, BitVec.getLsbD_append, h24, if_false, famOf, fnOf,
      BitVec.getLsbD_extractLsb']
    by_cases h28 : b - 24 < 4
    · simp only [h28, if_true, decide_true, Bool.true_and]
      rw [show 24 + (b - 24) = b by omega]
    · have : b - 24 - 4 < 4 := by omega
      simp only [h28, if_false, this, decide_true, Bool.true_and]
      rw [show 28 + (b - 24 - 4) = b by omega]

/-- A command whose word has the FAM and FN of row `n` and that row's reserved bits clear. -/
theorem opcodeOf_row (n : Nat) {row : OpRow} {i : Instr} (hrow : opcodeMap[n]? = some row)
    (hname : row.mnemonic = i.mnemonic) (hfam : famOf (encode i) = row.fam) (hfn : fnOf (encode i) = row.fn)
    (hc : row.format.reservedClear (encode i) = true)
    (hm : maskCovers row.format (row.maskWord &&& 0x00FFFFFF#32) = true)
    (htop : row.maskWord.extractLsb' 24 8 = 0xFF#8) (hmatch : row.fam ++ row.fn ++ 0#24 = row.matchWord) :
    OpcodeOf.Statement i :=
  ⟨row, List.mem_of_getElem? hrow, hname, (masked_eq hm htop hfam hfn hc).trans hmatch⟩

theorem OpcodeOf.nop : OpcodeOf.Statement .nop :=
  opcodeOf_row 0 rfl rfl (famOf_encodeN _ _) (fnOf_encodeN _ _) (reservedClear_encodeN _ _)
    (by decide) rfl rfl

theorem OpcodeOf.tick : OpcodeOf.Statement .tick :=
  opcodeOf_row 1 rfl rfl (famOf_encodeN _ _) (fnOf_encodeN _ _) (reservedClear_encodeN _ _)
    (by decide) rfl rfl

theorem OpcodeOf.lock : OpcodeOf.Statement .lock :=
  opcodeOf_row 2 rfl rfl (famOf_encodeN _ _) (fnOf_encodeN _ _) (reservedClear_encodeN _ _)
    (by decide) rfl rfl

theorem OpcodeOf.setvar (imm8 : BitVec 8) : OpcodeOf.Statement (.setvar imm8) :=
  opcodeOf_row 3 rfl rfl (famOf_encodeB _ _ _) (fnOf_encodeB _ _ _) (reservedClear_encodeB _ _ _)
    (by decide) rfl rfl

theorem OpcodeOf.rdvar : OpcodeOf.Statement .rdvar :=
  opcodeOf_row 4 rfl rfl (famOf_encodeN _ _) (fnOf_encodeN _ _) (reservedClear_encodeN _ _)
    (by decide) rfl rfl

theorem OpcodeOf.rdstat : OpcodeOf.Statement .rdstat :=
  opcodeOf_row 5 rfl rfl (famOf_encodeN _ _) (fnOf_encodeN _ _) (reservedClear_encodeN _ _)
    (by decide) rfl rfl

theorem OpcodeOf.clrstat (mask16 : BitVec 16) : OpcodeOf.Statement (.clrstat mask16) :=
  opcodeOf_row 6 rfl rfl (famOf_encodeM _ _ _) (fnOf_encodeM _ _ _) (reservedClear_encodeM _ _ _)
    (by decide) rfl rfl

theorem OpcodeOf.rderr : OpcodeOf.Statement .rderr :=
  opcodeOf_row 7 rfl rfl (famOf_encodeN _ _) (fnOf_encodeN _ _) (reservedClear_encodeN _ _)
    (by decide) rfl rfl

theorem OpcodeOf.rdcycl : OpcodeOf.Statement .rdcycl :=
  opcodeOf_row 8 rfl rfl (famOf_encodeN _ _) (fnOf_encodeN _ _) (reservedClear_encodeN _ _)
    (by decide) rfl rfl

theorem OpcodeOf.rdcych : OpcodeOf.Statement .rdcych :=
  opcodeOf_row 9 rfl rfl (famOf_encodeN _ _) (fnOf_encodeN _ _) (reservedClear_encodeN _ _)
    (by decide) rfl rfl

theorem OpcodeOf.setirq (mask16 : BitVec 16) : OpcodeOf.Statement (.setirq mask16) :=
  opcodeOf_row 10 rfl rfl (famOf_encodeM _ _ _) (fnOf_encodeM _ _ _) (reservedClear_encodeM _ _ _)
    (by decide) rfl rfl

theorem OpcodeOf.rddrop : OpcodeOf.Statement .rddrop :=
  opcodeOf_row 11 rfl rfl (famOf_encodeN _ _) (fnOf_encodeN _ _) (reservedClear_encodeN _ _)
    (by decide) rfl rfl

theorem OpcodeOf.crcInit : OpcodeOf.Statement .crcInit :=
  opcodeOf_row 12 rfl rfl (famOf_encodeN _ _) (fnOf_encodeN _ _) (reservedClear_encodeN _ _)
    (by decide) rfl rfl

theorem OpcodeOf.crcFeed (imm8 : BitVec 8) : OpcodeOf.Statement (.crcFeed imm8) :=
  opcodeOf_row 13 rfl rfl (famOf_encodeB _ _ _) (fnOf_encodeB _ _ _) (reservedClear_encodeB _ _ _)
    (by decide) rfl rfl

theorem OpcodeOf.crcRd : OpcodeOf.Statement .crcRd :=
  opcodeOf_row 14 rfl rfl (famOf_encodeN _ _) (fnOf_encodeN _ _) (reservedClear_encodeN _ _)
    (by decide) rfl rfl

theorem OpcodeOf.crcBuf (slot : Slot) (src : BufSrc) (k : BitVec 4) : OpcodeOf.Statement (.crcBuf slot src k) :=
  opcodeOf_row 15 rfl rfl (famOf_encodeSK _ _ _ _ _) (fnOf_encodeSK _ _ _ _ _) (reservedClear_encodeSK _ _ _ _ _)
    (by decide) rfl rfl

theorem OpcodeOf.sumInit (id : BitVec 11) : OpcodeOf.Statement (.sumInit id) :=
  opcodeOf_row 16 rfl rfl (famOf_encodeI _ _ _) (fnOf_encodeI _ _ _) (reservedClear_encodeI _ _ _)
    (by decide) rfl rfl

theorem OpcodeOf.sumFeed (imm8 : BitVec 8) : OpcodeOf.Statement (.sumFeed imm8) :=
  opcodeOf_row 17 rfl rfl (famOf_encodeB _ _ _) (fnOf_encodeB _ _ _) (reservedClear_encodeB _ _ _)
    (by decide) rfl rfl

theorem OpcodeOf.sumRd : OpcodeOf.Statement .sumRd :=
  opcodeOf_row 18 rfl rfl (famOf_encodeN _ _) (fnOf_encodeN _ _) (reservedClear_encodeN _ _)
    (by decide) rfl rfl

theorem OpcodeOf.sumBuf (slot : Slot) (src : BufSrc) (k : BitVec 4) : OpcodeOf.Statement (.sumBuf slot src k) :=
  opcodeOf_row 19 rfl rfl (famOf_encodeSK _ _ _ _ _) (fnOf_encodeSK _ _ _ _ _) (reservedClear_encodeSK _ _ _ _ _)
    (by decide) rfl rfl

theorem OpcodeOf.cntLd (slot : Slot) (v : BitVec 4) : OpcodeOf.Statement (.cntLd slot v) :=
  opcodeOf_row 20 rfl rfl (famOf_encodeSV _ _ _ _) (fnOf_encodeSV _ _ _ _) (reservedClear_encodeSV _ _ _ _)
    (by decide) rfl rfl

theorem OpcodeOf.cntInc (slot : Slot) : OpcodeOf.Statement (.cntInc slot) :=
  opcodeOf_row 21 rfl rfl (famOf_encodeS _ _ _) (fnOf_encodeS _ _ _) (reservedClear_encodeS _ _ _)
    (by decide) rfl rfl

theorem OpcodeOf.cntRd (slot : Slot) : OpcodeOf.Statement (.cntRd slot) :=
  opcodeOf_row 22 rfl rfl (famOf_encodeS _ _ _) (fnOf_encodeS _ _ _) (reservedClear_encodeS _ _ _)
    (by decide) rfl rfl

theorem OpcodeOf.cntObs (slot : Slot) : OpcodeOf.Statement (.cntObs slot) :=
  opcodeOf_row 23 rfl rfl (famOf_encodeS _ _ _) (fnOf_encodeS _ _ _) (reservedClear_encodeS _ _ _)
    (by decide) rfl rfl

theorem OpcodeOf.cntPop (slot : Slot) : OpcodeOf.Statement (.cntPop slot) :=
  opcodeOf_row 24 rfl rfl (famOf_encodeS _ _ _) (fnOf_encodeS _ _ _) (reservedClear_encodeS _ _ _)
    (by decide) rfl rfl

theorem OpcodeOf.cntFlen (slot : Slot) : OpcodeOf.Statement (.cntFlen slot) :=
  opcodeOf_row 25 rfl rfl (famOf_encodeS _ _ _) (fnOf_encodeS _ _ _) (reservedClear_encodeS _ _ _)
    (by decide) rfl rfl

theorem OpcodeOf.cntSteer : OpcodeOf.Statement .cntSteer :=
  opcodeOf_row 26 rfl rfl (famOf_encodeN _ _) (fnOf_encodeN _ _) (reservedClear_encodeN _ _)
    (by decide) rfl rfl

theorem OpcodeOf.cntRxc (slot : Slot) : OpcodeOf.Statement (.cntRxc slot) :=
  opcodeOf_row 27 rfl rfl (famOf_encodeS _ _ _) (fnOf_encodeS _ _ _) (reservedClear_encodeS _ _ _)
    (by decide) rfl rfl

theorem OpcodeOf.bufWr (slot : Slot) (idx : ByteIndex) (byte : BitVec 8) : OpcodeOf.Statement (.bufWr slot idx byte) :=
  opcodeOf_row 28 rfl rfl (famOf_encodeSIB _ _ _ _ _) (fnOf_encodeSIB _ _ _ _ _) (reservedClear_encodeSIB _ _ _ _ _)
    (by decide) rfl rfl

theorem OpcodeOf.bufRd (slot : Slot) (src : BufSrc) (idx : ByteIndex) : OpcodeOf.Statement (.bufRd slot src idx) :=
  opcodeOf_row 29 rfl rfl (famOf_encodeSI _ _ _ _ _) (fnOf_encodeSI _ _ _ _ _) (reservedClear_encodeSI _ _ _ _ _)
    (by decide) rfl rfl

theorem OpcodeOf.bufSnap (slot : Slot) : OpcodeOf.Statement (.bufSnap slot) :=
  opcodeOf_row 30 rfl rfl (famOf_encodeS _ _ _) (fnOf_encodeS _ _ _) (reservedClear_encodeS _ _ _)
    (by decide) rfl rfl

theorem OpcodeOf.bufClr (slot : Slot) : OpcodeOf.Statement (.bufClr slot) :=
  opcodeOf_row 31 rfl rfl (famOf_encodeS _ _ _) (fnOf_encodeS _ _ _) (reservedClear_encodeS _ _ _)
    (by decide) rfl rfl

theorem OpcodeOf.frmTx (slot : Slot) : OpcodeOf.Statement (.frmTx slot) :=
  opcodeOf_row 32 rfl rfl (famOf_encodeS _ _ _) (fnOf_encodeS _ _ _) (reservedClear_encodeS _ _ _)
    (by decide) rfl rfl

theorem OpcodeOf.cfgWr (slot : Slot) (field : BitVec 4) (value : BitVec 12) : OpcodeOf.Statement (.cfgWr slot field value) :=
  opcodeOf_row 33 rfl rfl (famOf_encodeCW _ _ _ _ _) (fnOf_encodeCW _ _ _ _ _) (reservedClear_encodeCW _ _ _ _ _)
    (by decide) rfl rfl

theorem OpcodeOf.cfgRd (slot : Slot) (field : BitVec 4) : OpcodeOf.Statement (.cfgRd slot field) :=
  opcodeOf_row 34 rfl rfl (famOf_encodeCR _ _ _ _) (fnOf_encodeCR _ _ _ _) (reservedClear_encodeCR _ _ _ _)
    (by decide) rfl rfl

end Sys2Proof.Laws
end

