-- ==== Sys2Proof/Tests/Slice0.lean ====
section
/-! SUPPORT. Tests: ill-formed terms, words written out from 30_encoding.md and 95_test_vectors.md, one step of each
command with the values the spec gives for it, and for each statement with hypotheses a state that meets them. -/

namespace Sys2Proof.Tests

open Sys2Proof.Machine

/-! ## Terms that are no command (R89, R90) -/

theorem test_crcBuf_nine_bytes_illFormed : Instr.wellFormed (.crcBuf 2 .tx 9) = false := by decide
theorem test_crcBuf_eight_bytes_wellFormed : Instr.wellFormed (.crcBuf 2 .tx 8) = true := by decide
theorem test_sumBuf_nine_bytes_illFormed : Instr.wellFormed (.sumBuf 2 .rx 9) = false := by decide
theorem test_cfgWr_field_ten_illFormed : Instr.wellFormed (.cfgWr 0 10 0) = false := by decide
theorem test_cfgRd_field_ten_illFormed : Instr.wellFormed (.cfgRd 0 10) = false := by decide
theorem test_cfgRd_field_nine_wellFormed : Instr.wellFormed (.cfgRd 0 9) = true := by decide

/-! ## Words (30_encoding.md R93, R96; 95_test_vectors.md 1.1 to 2.9, P1 to P5) -/

theorem test_decode_nop : decode 0x00000000#32 = .ok (.nop) := by decide
theorem test_decode_tick : decode 0x01000000#32 = .ok (.tick) := by decide
theorem test_decode_lock : decode 0x02000000#32 = .ok (.lock) := by decide
theorem test_decode_setvar : decode 0x03000001#32 = .ok (.setvar 1) := by decide
theorem test_decode_rdvar : decode 0x04000000#32 = .ok (.rdvar) := by decide
theorem test_decode_rdstat : decode 0x05000000#32 = .ok (.rdstat) := by decide
theorem test_decode_clrstat : decode 0x0600FFFF#32 = .ok (.clrstat 0xFFFF) := by decide
theorem test_decode_rderr : decode 0x07000000#32 = .ok (.rderr) := by decide
theorem test_decode_rdcycl : decode 0x08000000#32 = .ok (.rdcycl) := by decide
theorem test_decode_rdcych : decode 0x09000000#32 = .ok (.rdcych) := by decide
theorem test_decode_setirq : decode 0x0A001C00#32 = .ok (.setirq 0x1C00) := by decide
theorem test_decode_rddrop : decode 0x0B000000#32 = .ok (.rddrop) := by decide
theorem test_decode_crcInit : decode 0x10000000#32 = .ok (.crcInit) := by decide
theorem test_decode_crcFeed : decode 0x11000031#32 = .ok (.crcFeed 0x31) := by decide
theorem test_decode_crcRd : decode 0x12000000#32 = .ok (.crcRd) := by decide
theorem test_decode_crcBuf : decode 0x13021007#32 = .ok (.crcBuf 2 .rx 7) := by decide
theorem test_decode_sumInit : decode 0x20000488#32 = .ok (.sumInit 0x488) := by decide
theorem test_decode_sumFeed : decode 0x21000012#32 = .ok (.sumFeed 0x12) := by decide
theorem test_decode_sumRd : decode 0x22000000#32 = .ok (.sumRd) := by decide
theorem test_decode_sumBuf : decode 0x23070007#32 = .ok (.sumBuf 7 .tx 7) := by decide
theorem test_decode_cntLd : decode 0x30020005#32 = .ok (.cntLd 2 5) := by decide
theorem test_decode_cntInc : decode 0x31030000#32 = .ok (.cntInc 3) := by decide
theorem test_decode_cntRd : decode 0x32030000#32 = .ok (.cntRd 3) := by decide
theorem test_decode_cntObs : decode 0x33020000#32 = .ok (.cntObs 2) := by decide
theorem test_decode_cntPop : decode 0x34010000#32 = .ok (.cntPop 1) := by decide
theorem test_decode_cntFlen : decode 0x35010000#32 = .ok (.cntFlen 1) := by decide
theorem test_decode_cntSteer : decode 0x36000000#32 = .ok (.cntSteer) := by decide
theorem test_decode_cntRxc : decode 0x37010000#32 = .ok (.cntRxc 1) := by decide
theorem test_decode_bufWr : decode 0x40000134#32 = .ok (.bufWr 0 1 0x34) := by decide
theorem test_decode_bufRd : decode 0x41021600#32 = .ok (.bufRd 2 .rx 6) := by decide
theorem test_decode_bufSnap : decode 0x42020000#32 = .ok (.bufSnap 2) := by decide
theorem test_decode_bufClr : decode 0x43020000#32 = .ok (.bufClr 2) := by decide
theorem test_decode_frmTx : decode 0x50010000#32 = .ok (.frmTx 1) := by decide
theorem test_decode_cfgWr : decode 0x60001488#32 = .ok (.cfgWr 0 1 0x488) := by decide
theorem test_decode_cfgRd : decode 0x61015000#32 = .ok (.cfgRd 1 5) := by decide

theorem test_encode_words :
    encode (.setvar 1) = 0x03000001#32 ∧ encode (.crcBuf 2 .rx 7) = 0x13021007#32 ∧
    encode (.cntLd 2 5) = 0x30020005#32 ∧ encode (.bufWr 0 1 0x34) = 0x40000134#32 ∧
    encode (.bufRd 2 .rx 6) = 0x41021600#32 ∧ encode (.frmTx 1) = 0x50010000#32 ∧
    encode (.cfgWr 0 1 0x488) = 0x60001488#32 ∧ encode (.cfgRd 1 5) = 0x61015000#32 := by decide

/-! Words 95_test_vectors.md answers with E_ILLEGAL (2.1, 2.3, 2.5, 2.6, 2.8, 2.9). -/

theorem test_decode_reserved_family : decode 0x70000000#32 = .error .reservedFamily := by decide
theorem test_decode_all_ones : decode 0xFFFFFFFF#32 = .error .reservedFamily := by decide
theorem test_decode_reserved_function : decode 0x0C000000#32 = .error .reservedFunction := by decide
theorem test_decode_reserved_function_frm : decode 0x51000000#32 = .error .reservedFunction := by decide
theorem test_decode_reserved_bit : decode 0x00000001#32 = .error .reservedBits := by decide
theorem test_decode_slot_bit_19 : decode 0x40080000#32 = .error .reservedBits := by decide
theorem test_decode_nine_bytes : decode 0x13020009#32 = .error .illegalCount := by decide
theorem test_decode_field_ten : decode 0x6000A000#32 = .error .illegalField := by decide
theorem test_decodeTableWord : decodeTableWord 32 0x30020005 = some (.cntLd 2 5) ∧
    decodeTableWord 32 0x70000000 = none := by decide

/-! ## Small states -/

/-- The test table of 95_test_vectors.md 0: `T[0][c] = 0xA0 + c`, `T[1][c] = 0xB0 + c`. -/
def testTable : Vector (Vector Byte 16) 2 :=
  #v[#v[0xA0, 0xA1, 0xA2, 0xA3, 0xA4, 0xA5, 0xA6, 0xA7, 0xA8, 0xA9, 0xAA, 0xAB, 0xAC, 0xAD, 0xAE, 0xAF],
     #v[0xB0, 0xB1, 0xB2, 0xB3, 0xB4, 0xB5, 0xB6, 0xB7, 0xB8, 0xB9, 0xBA, 0xBB, 0xBC, 0xBD, 0xBE, 0xBF]]

/-- The state after reset under the parameters of the test vectors. -/
def fresh : State := State.resetWith { crc8Init := 0xFF, fifoDepth := 4, authTable := testTable }

/-- Slot 0 of the reference configuration (R252): steering. -/
def steerEntry : TblEntry :=
  { TblEntry.zero with
    valid := true, txEn := true, id := 0x488, len := 4, txMask := 1, kind := .sum, k := 3, pos := 3, ctrEn := true
    ctrByte := 2, cls := .steer }

/-- Slot 1 of the reference configuration, with its TXMASK. -/
def longEntry (tx : BitVec 3) : TblEntry :=
  { TblEntry.zero with
    valid := true, rxEn := true, txEn := true, id := 0x2B9, len := 8, rxMask := 2, txMask := tx, kind := .sum, k := 7
    pos := 7, ctrEn := true, ctrByte := 6, ctrLsb := 4, cls := .long }

/-- Slot 2 of the FamilyA reference configuration: the stalk, authenticated by table. -/
def cancelEntryA : TblEntry :=
  { TblEntry.zero with
    valid := true, rxEn := true, txEn := true, id := 0x045, len := 8, rxMask := 1, txMask := 1, kind := .table, pos := 7
    ctrEn := true, ctrByte := 6, cmdWm1 := 2, cmdv := 1, cls := .cancel }

/-- Slot 2 of the FamilyB reference configuration: the stalk, authenticated by CRC. -/
def cancelEntryB : TblEntry :=
  { cancelEntryA with txMask := 5, kind := .crc, k := 7, cmdWm1 := 0 }

/-- Slot 3 of 95_test_vectors.md 1.1: class OTHER with its own counter. -/
def otherEntry : TblEntry :=
  { TblEntry.zero with
    valid := true, txEn := true, id := 0x100, len := 2, txMask := 1, kind := .sum, k := 1, pos := 1, ctrEn := true }

/-- The state after the FamilyA loading sequence of R252, with slot 3 of 95_test_vectors.md 1.1 beside it. -/
def refA : State :=
  { fresh with
    locked := true
    tbl := #v[steerEntry, longEntry 1, cancelEntryA, otherEntry, .zero, .zero, .zero, .zero] }

/-- The state after the FamilyB loading sequence of R252. -/
def refB : State :=
  { fresh with
    locked := true, fam := .b
    tbl := #v[steerEntry, longEntry 5, cancelEntryB, .zero, .zero, .zero, .zero, .zero] }

/-- The stalk frame with counter 4 of program P2. -/
def stalkFrame : RxFrame := { bus := 0, id := 0x045, len := 8, data := #v[0, 0x11, 0x22, 0x33, 0x44, 0x55, 4, 0] }

/-- The longitudinal frame with counter 5 of 95_test_vectors.md 1.4. -/
def longFrame : RxFrame := { bus := 1, id := 0x2B9, len := 8, data := #v[1, 2, 3, 4, 5, 6, 0x50, 0] }

/-- A template of slot 2 as BUF.SNAP leaves it after the stalk frame. -/
def stalkTemplate : Vector Byte 8 := #v[0, 0x11, 0x22, 0x33, 0x44, 0x55, 4, 0]

/-- `FIFO[1] = [3, 4, 5]`, with the observed counter of the last. -/
def withFifo (s : State) : State :=
  { s with fifo := s.fifo.set 1 [3, 4, 5], last := s.last.set 1 5, lastv := s.lastv.set 1 true,
           txbuf := s.txbuf.set 1 #v[1, 2, 3, 4, 5, 6, 7, 0] }

/-- One stalk counter observed on slot 2, and its template. -/
def withStalk (v : Counter) (s : State) : State :=
  { s with last := s.last.set 2 v, lastv := s.lastv.set 2 true, txbuf := s.txbuf.set 2 stalkTemplate }

/-- The state after one arrival. -/
def after (x : Input) (s : State) : State :=
  match step { s with inputs := [x] } with
  | .next t => t
  | _ => s

/-- The state after one command word, presented as the host presents it. -/
def run (w : Nat) (s : State) : State :=
  match step (s.withFetchWord 32 w) with
  | .next t => t
  | _ => s

/-! ## The reference configuration (R252) -/

theorem test_refA_valid : validTable refA = true := by decide
theorem test_refB_valid : validTable refB = true := by decide
theorem test_loading_word : (run 0x600250E3 fresh).tbl[2] = { TblEntry.zero with kind := .table, pos := 7 } := by decide

/-! ## One step of each command -/

/-- 95_test_vectors.md 2.8. -/
theorem test_nop :
    (run 0x00000000 refA).resp = some 0x000000 ∧ (run 0x00000000 refA).tbl = refA.tbl := by decide

/-- 95_test_vectors.md 2.8; R271. -/
theorem test_tick :
    (run 0x01000000 { fresh with cyc := 0xFFFFFFFF, phase := 2 }).cyc = 0 ∧
    (run 0x01000000 { fresh with cyc := 0xFFFFFFFF, phase := 2 }).phase = 0 := by decide

/-- R252, the last word of the loading sequence. -/
theorem test_lock :
    (run 0x02000000 { refA with locked := false }).locked = true ∧
    (run 0x02000000 { refA with locked := false }).resp = some 0x000000 := by decide

/-- 95_test_vectors.md 2.5; R250. -/
theorem test_lock_wrong_variant :
    (run 0x02000000 { refA with locked := false, fam := .b }).resp = some 0x150000 ∧
    (run 0x02000000 { refA with locked := false, fam := .b }).locked = false := by decide

/-- 95_test_vectors.md 2.8. -/
theorem test_setvar :
    (run 0x03000003 fresh).fam = .b ∧ (run 0x03000003 fresh).sub = true := by decide

/-- 95_test_vectors.md 2.8. -/
theorem test_setvar_badval :
    (run 0x03000002 fresh).resp = some 0x140000 ∧ (run 0x03000002 fresh).err = 4 := by decide

/-- 95_test_vectors.md P3, step 52. -/
theorem test_rdvar :
    (run 0x04000000 refB).resp = some 0x000101 := by decide

/-- R275. -/
theorem test_rdstat :
    (run 0x05000000 { fresh with status := 0x0018 }).resp = some 0x000018 := by decide

/-- R276. -/
theorem test_clrstat :
    (run 0x06001C00 { fresh with status := 0x1C80, err := 7 }).status = 0x0080 ∧
    (run 0x06001C00 { fresh with status := 0x1C80, err := 7 }).err = 0 := by decide

/-- R277. -/
theorem test_rderr :
    (run 0x07000000 { fresh with err := 1 }).resp = some 0x000001 := by decide

/-- R278. -/
theorem test_rdcycl :
    (run 0x08000000 { fresh with cyc := 0xFFFEABCD }).resp = some 0x00ABCD := by decide

/-- R279. -/
theorem test_rdcych :
    (run 0x09000000 { fresh with cyc := 0xFFFEABCD }).resp = some 0x00FFFE := by decide

/-- R280, R297. -/
theorem test_setirq :
    (run 0x0A001C00 { fresh with status := 0x1000 }).irqEn = 0x1C00 ∧
    (run 0x0A001C00 { fresh with status := 0x1000 }).irq = true := by decide

/-- R281. -/
theorem test_rddrop :
    (run 0x0B000000 { fresh with rxDrop := 2 }).resp = some 0x000002 := by decide

/-- 95_test_vectors.md 2.1. -/
theorem test_crcInit :
    (run 0x10000000 { fresh with crc := 0x12 }).crc = 0xFF := by decide

/-- 95_test_vectors.md 2.1. -/
theorem test_crcFeed :
    (run 0x11000031 fresh).resp = some 0x00006C ∧ (run 0x11000031 fresh).crc = 0x93 := by decide

/-- 95_test_vectors.md 2.1. -/
theorem test_crcRd :
    (run 0x12000000 fresh).resp = some 0x000000 ∧ (run 0x12000000 { fresh with crc := 0xB1 }).resp = some 0x00004E := by decide

/-- 95_test_vectors.md 2.1. -/
theorem test_crcBuf :
    (run 0x13020007 { fresh with txbuf := fresh.txbuf.set 2 #v[1, 0x11, 0x22, 0x33, 0x44, 0x55, 0x0A, 0x4E] }).resp =
    some 0x00004E := by decide +kernel

/-- 95_test_vectors.md 2.1. -/
theorem test_crcBuf_nine_bytes :
    (run 0x13020009 fresh).resp = some 0x110000 ∧ (run 0x13020009 fresh).status = 0x0002 ∧
    (run 0x13020009 fresh).crc = 0xFF := by decide

/-- 95_test_vectors.md 2.2. -/
theorem test_sumInit :
    (run 0x20000488 fresh).resp = some 0x00008C ∧ (run 0x200007FF fresh).sum = 0x06 := by decide

/-- 95_test_vectors.md 2.2. -/
theorem test_sumFeed :
    (run 0x21000001 { fresh with sum := 0xFF }).sum = 0 ∧ (run 0x21000012 { fresh with sum := 0x8C }).resp = some 0x00009E := by decide

/-- 95_test_vectors.md 2.2. -/
theorem test_sumRd :
    (run 0x22000000 { fresh with sum := 0x15 }).resp = some 0x000015 := by decide

/-- 95_test_vectors.md 2.2. -/
theorem test_sumBuf :
    (run 0x23010007 { refA with txbuf := refA.txbuf.set 1 #v[1, 2, 3, 4, 5, 6, 0x47, 0] }).resp = some 0x000017 := by decide

/-- 95_test_vectors.md 2.2. -/
theorem test_sumBuf_invalid_slot :
    (run 0x23070007 fresh).resp = some 0x160000 ∧ (run 0x23070007 fresh).status = 0x0040 := by decide

/-- 95_test_vectors.md 2.3. -/
theorem test_cntLd :
    (run 0x3003000F fresh).ctr[3] = 15 ∧ (run 0x3003000F fresh).ctr[2] = 0 := by decide

/-- 95_test_vectors.md 2.3. -/
theorem test_cntInc :
    (run 0x31030000 { fresh with ctr := fresh.ctr.set 3 15 }).ctr[3] = 0 ∧
    (run 0x31000000 { fresh with ctr := fresh.ctr.set 0 7 }).resp = some 0x000008 := by decide

/-- 95_test_vectors.md 2.3. -/
theorem test_cntRd :
    (run 0x32000000 { fresh with ctr := fresh.ctr.set 0 8 }).resp = some 0x000008 := by decide

/-- 95_test_vectors.md 2.3. -/
theorem test_cntObs :
    (run 0x33010000 (withFifo refA)).resp = some 0x000015 ∧ (run 0x33020000 fresh).resp = some 0x000000 := by decide

/-- 95_test_vectors.md 2.3. -/
theorem test_cntPop :
    (run 0x34010000 (withFifo refA)).resp = some 0x000013 ∧ (run 0x34010000 (withFifo refA)).fifo[1] = [4, 5] := by decide

/-- 95_test_vectors.md 2.3. -/
theorem test_cntPop_empty :
    (run 0x34010000 fresh).resp = some 0x000000 := by decide

/-- 95_test_vectors.md 1.4. -/
theorem test_cntFlen :
    (run 0x35010000 (withFifo refB)).resp = some 0x000003 := by decide

/-- 95_test_vectors.md 2.3. -/
theorem test_cntSteer :
    (run 0x36000000 { fresh with cyc := 7 }).resp = some 0x000003 ∧
    (run 0x36000000 { fresh with cyc := 0xFFFFFFFE }).resp = some 0x00000F := by decide

/-- 95_test_vectors.md 2.3. -/
theorem test_cntRxc :
    (run 0x37010000 { refA with rxcnt := refA.rxcnt.set 1 3 }).resp = some 0x000003 := by decide

/-- 95_test_vectors.md 2.4. -/
theorem test_bufWr :
    (run 0x40000134 fresh).txbuf[0] = #v[0, 0x34, 0, 0, 0, 0, 0, 0] := by decide

/-- 95_test_vectors.md 2.4. -/
theorem test_bufRd :
    (run 0x41021600 { fresh with rxbuf := fresh.rxbuf.set 2 #v[0, 0x11, 0x22, 0x33, 0x44, 0x55, 9, 0] }).resp =
    some 0x000009 := by decide

/-- 95_test_vectors.md 2.4. -/
theorem test_bufSnap :
    (run 0x42020000 { fresh with rxbuf := fresh.rxbuf.set 2 stalkTemplate }).txbuf[2] = stalkTemplate := by decide

/-- 95_test_vectors.md 2.4. -/
theorem test_bufClr :
    (run 0x43020000 (withStalk 4 refA)).txbuf[2] = #v[0, 0, 0, 0, 0, 0, 0, 0] := by decide

/-- 95_test_vectors.md 1.1. -/
theorem test_frmTx_steer :
    (run 0x50000000 { refA with cyc := 0xFFFFFFFE, txbuf := refA.txbuf.set 0 #v[0x12, 0x34, 0x40, 0, 0, 0, 0, 0] }).out =
    [{ bus := 0, id := 0x488, len := 4, data := [0x12, 0x34, 0x4F, 0x21] }] := by decide

/-- 95_test_vectors.md 1.3. -/
theorem test_frmTx_cancel_A :
    (run 0x50020000 (withStalk 4 refA)).out =
    [{ bus := 0, id := 0x045, len := 8, data := [0x01, 0x11, 0x22, 0x33, 0x44, 0x55, 0x05, 0xA5] },
     { bus := 0, id := 0x045, len := 8, data := [0x00, 0x11, 0x22, 0x33, 0x44, 0x55, 0x06, 0xB6] }] := by decide

/-- 95_test_vectors.md 2.5. -/
theorem test_cfgWr :
    (run 0x60001488 fresh).tbl[0].id = 0x488 ∧ (run 0x60002009 fresh).resp = some 0x140000 := by decide

/-- 95_test_vectors.md 2.5. -/
theorem test_cfgWr_locked :
    (run 0x60001001 refA).resp = some 0x120000 ∧ (run 0x60001001 refA).tbl = refA.tbl := by decide

/-- 95_test_vectors.md 2.5. -/
theorem test_cfgRd :
    (run 0x61015000 refA).resp = some 0x0000FD ∧ (run 0x61027000 refA).resp = some 0x000080 := by decide

/-- R117. -/
theorem test_crc8_check_value :
    crc8 0xFF [0x31, 0x32, 0x33, 0x34, 0x35, 0x36, 0x37, 0x38, 0x39] = 0x4B := by decide +kernel

/-! ## One reception -/

/-- 95_test_vectors.md 2.7; R207, R208. -/
theorem test_receive_stored :
    (after (.receive longFrame) refB).rxbuf[1] = longFrame.data ∧ (after (.receive longFrame) refB).fifo[1] = [5] ∧
    (after (.receive longFrame) refB).last[1] = 5 ∧ (after (.receive longFrame) refB).resp = none := by decide

/-- R208: a full FIFO drops its oldest counter. -/
theorem test_receive_overflow :
    (after (.receive longFrame) { refB with fifo := refB.fifo.set 1 [1, 2, 3, 4] }).fifo[1] = [2, 3, 4, 5] ∧
    (after (.receive longFrame) { refB with fifo := refB.fifo.set 1 [1, 2, 3, 4] }).status = 0x0800 := by decide

/-- R204, R205, R32. -/
theorem test_receive_dropped :
    (after (.receive longFrame) fresh).rxDrop = 1 ∧
    (after (.receive { longFrame with bus := 0 }) { refB with rxDrop := 255 }).rxDrop = 255 ∧
    (after (.receive { longFrame with bus := 0 }) refB).status = 0x1000 := by decide

/-- R206. -/
theorem test_receive_wrong_length :
    (after (.receive { longFrame with len := 7 }) refB).status = 0x0400 ∧
    (after (.receive { longFrame with len := 7 }) refB).rxDrop = 0 := by decide

/-- R320, R321. -/
theorem test_reset_input : after .reset { refA with crc := 0x12, ctr := refA.ctr.set 3 7 } = fresh := by decide

/-! ## Witnesses: for each statement with hypotheses, a state and operands that meet them, clause by clause -/

/-- A state with one arrival to come. -/
def withInput (x : Input) (s : State) : State := { s with inputs := [x] }

/-- The words `good` and `bad` meet the hypotheses of `WordsRun` on the word: the first of its first clause, the second,
with one reserved bit set, of its second. -/
def wordsMet (op : BitVec 8) (zeros good bad : Word) : Bool :=
  good.extractLsb' 24 8 == op && good &&& zeros == 0#32 && bad.extractLsb' 24 8 == op && bad &&& zeros != 0#32

/-- Any word can be the next arrival. -/
theorem witness_words_arrive (w : Word) : (withInput (.command w) fresh).inputs = .command w :: [] := rfl

theorem witness_words_sys :
    wordsMet 0x00 0x00FFFFFF 0x00000000 0x00000001 ∧ wordsMet 0x01 0x00FFFFFF 0x01000000 0x01800000 ∧
    wordsMet 0x02 0x00FFFFFF 0x02000000 0x02000001 ∧ wordsMet 0x03 0x00FFFF00 0x030000FF 0x03000100 ∧
    wordsMet 0x04 0x00FFFFFF 0x04000000 0x04000001 ∧ wordsMet 0x05 0x00FFFFFF 0x05000000 0x05000001 ∧
    wordsMet 0x06 0x00FF0000 0x0600FFFF 0x06010000 ∧ wordsMet 0x07 0x00FFFFFF 0x07000000 0x07000001 ∧
    wordsMet 0x08 0x00FFFFFF 0x08000000 0x08000001 ∧ wordsMet 0x09 0x00FFFFFF 0x09000000 0x09000001 ∧
    wordsMet 0x0A 0x00FF0000 0x0A00FFFF 0x0A010000 ∧ wordsMet 0x0B 0x00FFFFFF 0x0B000000 0x0B000001 := by
  decide

theorem witness_words_crc_sum :
    wordsMet 0x10 0x00FFFFFF 0x10000000 0x10000001 ∧ wordsMet 0x11 0x00FFFF00 0x110000FF 0x11000100 ∧
    wordsMet 0x12 0x00FFFFFF 0x12000000 0x12000001 ∧ wordsMet 0x13 0x00F8EFF0 0x1307100F 0x13080000 ∧
    wordsMet 0x20 0x00FFF800 0x200007FF 0x20000800 ∧ wordsMet 0x21 0x00FFFF00 0x210000FF 0x21000100 ∧
    wordsMet 0x22 0x00FFFFFF 0x22000000 0x22000001 ∧ wordsMet 0x23 0x00F8EFF0 0x2307100F 0x23002000 := by
  decide

theorem witness_words_cnt :
    wordsMet 0x30 0x00F8FFF0 0x3007000F 0x30000010 ∧ wordsMet 0x31 0x00F8FFFF 0x31070000 0x31080000 ∧
    wordsMet 0x32 0x00F8FFFF 0x32070000 0x32080000 ∧ wordsMet 0x33 0x00F8FFFF 0x33070000 0x33080000 ∧
    wordsMet 0x34 0x00F8FFFF 0x34070000 0x34080000 ∧ wordsMet 0x35 0x00F8FFFF 0x35070000 0x35080000 ∧
    wordsMet 0x36 0x00FFFFFF 0x36000000 0x36000001 ∧ wordsMet 0x37 0x00F8FFFF 0x37070000 0x37080000 := by
  decide

theorem witness_words_buf_frm_cfg :
    wordsMet 0x40 0x00F8F800 0x400707FF 0x40000800 ∧ wordsMet 0x41 0x00F8E8FF 0x41071700 0x41000001 ∧
    wordsMet 0x42 0x00F8FFFF 0x42070000 0x42080000 ∧ wordsMet 0x43 0x00F8FFFF 0x43070000 0x43080000 ∧
    wordsMet 0x50 0x00F8FFFF 0x50070000 0x50080000 ∧ wordsMet 0x60 0x00F80000 0x6007FFFF 0x60080000 ∧
    wordsMet 0x61 0x00F80FFF 0x6107F000 0x61000001 := by
  decide

/-! ### Legal states -/

theorem inv_fresh : fresh.Inv := by constructor <;> decide
theorem inv_refA : refA.Inv := by constructor <;> decide
theorem inv_refB : refB.Inv := by constructor <;> decide
theorem inv_fifo : (withFifo refB).Inv := by constructor <;> decide
theorem inv_stalk : (withStalk 4 refA).Inv := by constructor <;> decide

/-! ### Encoding and steps -/

theorem witness_EncodedCommandDecodes :
    Instr.wellFormed (.crcBuf 7 .rx 8) = true ∧ Instr.wellFormed (.cfgWr 7 9 0xFFF) = true := by decide

theorem witness_DecodedWordIsItsEncoding : decode 0x13071008#32 = .ok (.crcBuf 7 .rx 8) := by decide

theorem witness_OpcodeMapDecides : ∃ row ∈ opcodeMap,
    (∃ i, decode 0x13071008#32 = .ok i ∧ i.mnemonic = row.mnemonic) ∧
    0x13071008#32 &&& row.maskWord = row.matchWord ∧ row.format = .sk :=
  ⟨_, List.mem_of_getElem? (i := 15) rfl, ⟨.crcBuf 7 .rx 8, by decide, rfl⟩, rfl, rfl⟩

/-- One word for each clause, at the first value it takes in. -/
theorem witness_ReservedWordsAreIllegal :
    (∀ w ∈ [0x70000000#32, 0x0C000000#32, 0x14000000#32, 0x24000000#32, 0x38000000#32, 0x44000000#32, 0x51000000#32,
        0x62000000#32, 0x13000009#32, 0x23000009#32, 0x6000A000#32, 0x6100A000#32],
      (withInput (.command w) fresh).inputs = .command w :: [] ∧ ∃ e, decode w = .error e) ∧
    (0x70000000#32).extractLsb' 28 4 = 7#4 ∧ (0x0C000000#32).extractLsb' 24 4 = 12#4 ∧
    (0x13000009#32).extractLsb' 0 4 = 9#4 ∧ (0x6000A000#32).extractLsb' 12 4 = 10#4 := by
  refine ⟨fun w hw => ⟨rfl, ?_⟩, by decide, by decide, by decide, by decide⟩
  simp only [List.mem_cons, List.not_mem_nil, or_false] at hw
  rcases hw with rfl | rfl | rfl | rfl | rfl | rfl | rfl | rfl | rfl | rfl | rfl | rfl <;> exact ⟨_, rfl⟩

theorem witness_StepRunsDecodedCommand :
    (decode 0x01000000#32 = .ok .tick ∧ Instr.wellFormed .tick = true ∧
      (withInput (.command 0x01000000) refA).inputs = .command 0x01000000 :: []) ∧
    (decode 0x70000000#32 = .error .reservedFamily ∧
      (withInput (.command 0x70000000) refA).inputs = .command 0x70000000 :: []) ∧
    refA.inputs = [] := by decide

theorem witness_FailingCommandOnlyReports (w : Word) :
    (withInput (.command w) fresh).inputs = .command w :: [] := rfl

theorem witness_SysReadCommands : refA.Inv ∧ (∃ t, exec (.clrstat 0) { refA with err := 7 } = .next t) ∧
    (withInput (.receive longFrame) fresh).inputs = .receive longFrame :: [] ∧ Input.receive longFrame ≠ .reset ∧
    ∃ t, step (withInput (.receive longFrame) fresh) = .next t := ⟨inv_refA, ⟨_, rfl⟩, rfl, nofun, _, rfl⟩

theorem witness_ReportedErrorsAreListed :
    exec (.frmTx 7) fresh = .next (failed 3 fresh) ∧ exec (.cfgWr 0 15 0) refA = .next (failed 1 refA) := ⟨rfl, rfl⟩

/-! ### SYS, the lock and the table -/

theorem witness_SetvarCommand :
    refA.locked = true ∧ fresh.locked = false ∧
    ∀ v ∈ [2#8, 4#8, 255#8], v.toNat ≠ 0 ∧ v.toNat ≠ 1 ∧ v.toNat ≠ 3 := by decide

theorem witness_LockCommand :
    refA.locked = true ∧
    ({ refA with locked := false, fam := .b } : State).locked = false ∧
    validTable { refA with locked := false, fam := .b } = false ∧
    validTable { refA with locked := false } = true ∧ (∀ i : Slot, fresh.tbl[i].valid = false) := by decide

theorem witness_ValidTableMeans : validTable refB = true ∧ validTable { refB with fam := .a } = false ∧
    validTable { refB with tbl := refB.tbl.set 7 (longEntry 2) } = false ∧
    validTable { refB with tbl := refB.tbl.set 2 cancelEntryA } = false := by decide

theorem witness_LockedConfigurationIsFrozen :
    (withInput (.receive longFrame) refA).inputs = .receive longFrame :: [] ∧ Input.receive longFrame ≠ .reset ∧
    refA.locked = true ∧ ∃ t, step (withInput (.receive longFrame) refA) = .next t := ⟨rfl, nofun, rfl, _, rfl⟩

theorem witness_OnlyLockLocks : fresh.locked = false ∧
    step (withInput (.command 0x02000000) fresh) = .next (run 0x02000000 fresh) ∧
    (run 0x02000000 fresh).locked = true := ⟨rfl, rfl, by decide⟩

/-- Each clause, with the least and the greatest legal value of a field and the values next to them. -/
theorem witness_CfgWriteCommand :
    9 < (10#4).toNat ∧ ((9#4).toNat ≤ 9 ∧ refA.locked = true) ∧
    (fresh.locked = false ∧ legalValue 2 0 = false ∧ legalValue 2 9 = false ∧ legalValue 6 0x50 = false ∧
      legalValue 7 0x1C8 = false ∧ legalValue 9 4 = false) ∧
    (legalValue 2 1 = true ∧ legalValue 2 8 = true ∧ legalValue 6 0x4F = true ∧ legalValue 7 0x1C7 = true ∧
      legalValue 9 3 = true) := by decide

theorem witness_CfgReadCommand : 9 < (10#4).toNat ∧ (9#4).toNat ≤ 9 ∧ fresh.locked = false ∧
    legalValue 7 0x1C7 = true := by decide

theorem witness_CfgReadsBackWhatWasWritten : legalValue 7 0x1C7 = true ∧ (0#4) ≠ 7 := by decide

/-! ### CRC, SUM, CNT, BUF -/

theorem witness_CrcCommands : (8 < (9#4).toNat ∧ (8#4).toNat ≤ 8 ∧ (0#4).toNat ≤ 8) ∧
    ∃ t, exec .crcInit refA = .next t := ⟨by decide, _, rfl⟩

theorem witness_IncrementalCrcIsPureCrc :
    ({ fresh with inputs := [.command 0x10000000, .command 0x11000031, .command 0x11000032] } : State).inputs =
      .command 0x10000000#32 :: [0x31#8, 0x32#8].map (fun b => .command (0x11000000#32 + b.setWidth 32)) := by decide

theorem witness_SumCommands : 8 < (9#4).toNat ∧ (8#4).toNat ≤ 8 ∧ refA.tbl[7].valid = false ∧
    refA.tbl[1].valid = true := by decide

theorem witness_OwnCounterCommands : refA.tbl[0].cls ≠ .other ∧ refA.tbl[1].cls ≠ .other ∧
    refA.tbl[2].cls ≠ .other := by decide

theorem witness_ObservedCounterCommands :
    refA.fifo[1] = [] ∧ (withFifo refB).fifo[1] = 3#4 :: [4, 5] ∧ (withFifo refB).Inv ∧
    (withFifo refB).tbl[2].cls ≠ .long ∧ (withFifo refB).lastv[2] = false :=
  ⟨by decide, by decide, inv_fifo, by decide, by decide⟩

theorem witness_SteeringCounterAdvances : (0xFFFFFFFE#32).toNat % 2 = 0 := by decide

theorem witness_BufferCommands : refA.Inv ∧ refA.tbl[0].len.toNat ≤ (4 : ByteIndex).val := ⟨inv_refA, by decide⟩

/-! ### FRM.TX -/

theorem witness_SetFieldWritesOnlyItsBits :
    0 < [0x12#8].length ∧ 7 < 8 ∧ (0 = 0 ∧ 4 ≤ 7 ∧ 7 < 4 + 4) ∧ ¬ (0 = 0 ∧ 4 ≤ 3 ∧ 3 < 4 + 4) := by decide

/-- Slot 2 of refA: the counter nibble, the command field, and a template byte. -/
theorem witness_BuiltPayloadBits :
    let e := refA.tbl[2]
    e.len.toNat ≤ 8 ∧ (e.kind ≠ .none → 6 ≠ e.pos.toNat) ∧
    (e.ctrEn = true ∧ 6 = e.ctrByte.toNat ∧ e.ctrLsb.toNat ≤ 3 ∧ 3 < e.ctrLsb.toNat + 4) ∧
    (0 = e.cmdByte.toNat ∧ e.cmdLsb.toNat ≤ 2 ∧ 2 < e.cmdLsb.toNat + (e.cmdWm1.toNat + 1)) ∧
    ¬ (3 < e.cmdLsb.toNat + (e.cmdWm1.toNat + 1)) := by decide

theorem witness_BuiltPayloadAuthentication :
    (∀ e ∈ [refA.tbl[0], refB.tbl[2], refA.tbl[2]], e.len.toNat ≤ 8 ∧ e.pos.toNat < e.len.toNat) ∧
    (refA.tbl[0].kind = .sum ∧ refA.tbl[0].k.toNat ≤ refA.tbl[0].pos.toNat) ∧
    (refB.tbl[2].kind = .crc ∧ refB.tbl[2].k.toNat ≤ refB.tbl[2].pos.toNat) ∧ refA.tbl[2].kind = .table := by decide

/-- One state for each failure, in the order of R186. -/
theorem witness_FrmTxFailures :
    fresh.locked = false ∧
    (refA.locked = true ∧ refA.tbl[7].valid = false) ∧
    (TxReady refA 0 ∧ ({ refA with phase := 2 } : State).phase.toNat > 1) ∧
    (TxReady refA 0 ∧ refA.phase.toNat ≤ 1 ∧ refA.tbl[0].cls = .steer ∧
      ({ refA with cyc := 1 } : State).cyc.toNat % 2 = 1) ∧
    (TxReady refA 1 ∧ refA.tbl[1].cls = .long ∧ refA.fam = .a ∧ refA.fifo[1] = []) ∧
    (TxReady refA 2 ∧ refA.tbl[2].cls = .cancel ∧ refA.lastv[2] = false) := by decide

theorem witness_FrmTxOtherAndSteer :
    (TxReady refA 3 ∧ refA.tbl[3].cls = .other) ∧
    (TxReady refA 0 ∧ refA.tbl[0].cls = .steer ∧ refA.phase.toNat ≤ 1 ∧ refA.cyc.toNat % 2 = 0) := by decide

theorem witness_FrmTxLong :
    (TxReady (withFifo refA) 1 ∧ (withFifo refA).tbl[1].cls = .long ∧ (withFifo refA).phase.toNat ≤ 2 ∧
      (withFifo refA).fam = .a ∧ (withFifo refA).fifo[1] = [3, 4] ++ [5#4]) ∧
    (TxReady refB 1 ∧ refB.tbl[1].cls = .long ∧ refB.phase.toNat ≤ 2 ∧ refB.fam = .b) := by decide

theorem witness_FrmTxCancel :
    (TxReady (withStalk 15 refA) 2 ∧ (withStalk 15 refA).tbl[2].cls = .cancel ∧
      (withStalk 15 refA).lastv[2] = true ∧ (withStalk 15 refA).fam = .a) ∧
    (TxReady (withStalk 15 refB) 2 ∧ (withStalk 15 refB).tbl[2].cls = .cancel ∧
      (withStalk 15 refB).lastv[2] = true ∧ (withStalk 15 refB).fam = .b) := by decide

theorem witness_FrmTxCountsItsFrames :
    (withFifo refB).Inv ∧ exec (.frmTx 1) (withFifo refB) = .next (run 0x50010000 (withFifo refB)) ∧
    6 < 0x10000 ∧ (run 0x50010000 (withFifo refB)).resp = some (BitVec.ofNat 21 6) :=
  ⟨inv_fifo, rfl, by decide, by decide⟩

theorem inv_stalk_B : (withStalk 4 refB).Inv := by constructor <;> decide

/-- A slot with KIND SUM and one with KIND CRC. -/
theorem witness_EmittedFramesAuthenticate :
    ((withStalk 4 refB).Inv ∧ (∃ t, exec (.frmTx 2) (withStalk 4 refB) = .next t) ∧
      (withStalk 4 refB).tbl[2].kind = .crc ∧ (run 0x50020000 (withStalk 4 refB)).out.length = 32) ∧
    (withFifo refB).Inv ∧ (∃ t, exec (.frmTx 1) (withFifo refB) = .next t) ∧ (withFifo refB).tbl[1].kind = .sum ∧
    (run 0x50010000 (withFifo refB)).out.length = 6 :=
  ⟨⟨inv_stalk_B, ⟨_, rfl⟩, by decide, by decide +kernel⟩, inv_fifo, ⟨_, rfl⟩, by decide, by decide⟩

theorem witness_ClassOrderWithinCycle :
    exec (.frmTx 1) (withFifo refB) = .next (run 0x50010000 (withFifo refB)) ∧
    (run 0x50010000 (withFifo refB)).out ≠ (withFifo refB).out ∧ (withFifo refB).tbl[1].cls ≠ .other ∧
    (∃ t, exec (.frmTx 3) refA = .next t) ∧ refA.tbl[3].cls = .other := ⟨rfl, by decide, by decide, ⟨_, rfl⟩, by decide⟩

theorem witness_FrmTxIgnoresIncrementalRegisters : ∃ t, exec (.frmTx 3) refA = .next t := ⟨_, rfl⟩

/-! ### The RX port -/

theorem witness_UnmatchedFrameIsDropped :
    (withInput (.receive longFrame) fresh).inputs = .receive longFrame :: [] ∧ fresh.locked = false ∧
    refB.locked = true ∧ (∀ i : Slot, ¬ SlotTakes refB { longFrame with bus := 3 } i) := by decide

theorem witness_WrongLengthFrameIsDropped :
    refB.Inv ∧ refB.locked = true ∧ SlotTakes refB { longFrame with len := 0 } 1 ∧
    ({ longFrame with len := 0 } : RxFrame).len ≠ refB.tbl[1].len := ⟨inv_refB, by decide, by decide, by decide⟩

/-- A slot that buffers counters, with its FIFO not full and full, and one that does not. -/
theorem witness_MatchedFrameIsStored :
    refB.Inv ∧ refB.locked = true ∧ SlotTakes refB longFrame 1 ∧ longFrame.len = refB.tbl[1].len ∧
    (withFifo refB).fifo[1].length ≠ (withFifo refB).params.fifoDepth ∧
    ({ withFifo refB with fifo := refB.fifo.set 1 [1, 2, 3, 4] } : State).fifo[1].length = refB.params.fifoDepth ∧
    SlotTakes refB stalkFrame 2 ∧ stalkFrame.len = refB.tbl[2].len ∧ refB.tbl[2].cls ≠ .long :=
  ⟨inv_refB, by decide, by decide, by decide, by decide, by decide, by decide, by decide, by decide⟩

theorem witness_AtMostOneSlotMatches : refB.Inv ∧ refB.locked = true ∧ SlotTakes refB longFrame 1 :=
  ⟨inv_refB, by decide, by decide⟩

theorem witness_ReceptionWritesOnlyItsState :
    (withInput (.receive longFrame) refB).inputs = .receive longFrame :: [] ∧
    ∃ t, step (withInput (.receive longFrame) refB) = .next t := ⟨rfl, _, rfl⟩

/-! ### The whole block -/

theorem witness_ResetInputRestores : (withInput .reset refA).inputs = .reset :: [] := rfl

theorem witness_ParametersNeverChange : ∃ t, step (withInput .reset refA) = .next t := ⟨_, rfl⟩

theorem witness_LegalStateKeptByEveryStep :
    (withFifo refB).Inv ∧ (∃ t, step (withFifo refB) = .next t) ∧ (withFifo refB).out = [] ∧
    (∃ t, step (withInput (.command 0x50010000) (withFifo refB)) = .next t) := ⟨inv_fifo, ⟨_, rfl⟩, rfl, ⟨_, rfl⟩⟩

theorem witness_OutputOnlyGrows :
    (withInput (.command 0x50010000) (withFifo refB)).inputs = .command 0x50010000 :: [] ∧
    Input.command 0x50010000 ≠ .reset ∧
    ∃ t, step (withInput (.command 0x50010000) (withFifo refB)) = .next t := ⟨rfl, nofun, _, rfl⟩

/-- The registers the commands of the configuration and of SYS change. -/
theorem witness_RegistersHaveOnlyTheirWriters_sys :
    (∀ i : Instr, ∃ t, exec i refA = .next t) ∧
    (run 0x10000000 { fresh with crc := 0x12 }).crc ≠ 0x12 ∧ (run 0x20000488 fresh).sum ≠ fresh.sum ∧
    (run 0x01000000 fresh).cyc ≠ fresh.cyc ∧ (run 0x03000003 fresh).fam ≠ fresh.fam ∧
    (run 0x03000003 fresh).sub ≠ fresh.sub ∧ (run 0x02000000 fresh).locked ≠ fresh.locked ∧
    (run 0x50000000 fresh).status ≠ fresh.status ∧ (run 0x50000000 fresh).err ≠ fresh.err ∧
    (run 0x0A000001 fresh).irqEn ≠ fresh.irqEn ∧ (run 0x60001488 fresh).tbl ≠ fresh.tbl ∧
    (run 0x40000134 fresh).txbuf ≠ fresh.txbuf :=
  ⟨fun i => by
    cases i <;> simp only [exec, execNop, execTick, execLock, execSetvar, execCrcBuf, execSumBuf, execCntPop, execFrmTx,
      execCfgWr, execCfgRd] <;> repeat' split
    all_goals exact ⟨_, rfl⟩, by decide⟩

/-- The registers FRM.TX and CNT.INC change: CTR on a slot of class OTHER, FIFO and PHASE on one of class LONG. -/
theorem witness_RegistersHaveOnlyTheirWriters_tx :
    (run 0x50030000 refA).ctr ≠ refA.ctr ∧ refA.tbl[3].cls = .other ∧ (run 0x31030000 refA).ctr ≠ refA.ctr ∧
    (run 0x50010000 (withFifo refB)).fifo ≠ (withFifo refB).fifo ∧
    (run 0x50010000 (withFifo refB)).phase ≠ (withFifo refB).phase := by decide

theorem witness_ReadsAreIdempotent : isPureRead .rdstat = true ∧ isPureRead (.cfgRd 0 9) = true := by decide

theorem witness_StatusBitsStick :
    (withInput (.command 0x06000008) { refA with status := 0x0018 }).inputs = .command 0x06000008 :: [] ∧
    Input.command 0x06000008 ≠ .reset ∧
    step (withInput (.command 0x06000008) { refA with status := 0x0018 }) =
      .next (run 0x06000008 { refA with status := 0x0018 }) ∧
    ({ refA with status := 0x0018 } : State).status.getLsbD 3 = true ∧
    (run 0x06000008 { refA with status := 0x0018 }).status.getLsbD 3 = false :=
  ⟨rfl, nofun, rfl, by decide, by decide⟩

theorem witness_InterruptLevel : refA.Inv := inv_refA

theorem witness_SubFlagHasNoEffect :
    (withInput (.command 0x50010000) (withFifo refB)).inputs.head? ≠ some (.command 0x04000000#32) ∧
    ∃ t, step (withInput (.command 0x50010000) (withFifo refB)) = .next t := ⟨by decide, _, rfl⟩

end Sys2Proof.Tests
end

section
/-! PROOFS. The opcode map as the decoder reads it (30_encoding.md R86–R90, R96): a row is found by its FAM and FN, its
match and mask say that FAM and FN are its own and its reserved bits clear, and its operand check is that of its format.
Settles O3 and O4. -/

namespace Sys2Proof

open Machine

/-! ## The row of a word -/

/-- FAM and FN are all a row is found by, and they name at most one. -/
theorem opcodeMap_eq_of_code {a b : OpRow} (ha : a ∈ opcodeMap) (hb : b ∈ opcodeMap) (hfam : a.fam = b.fam)
    (hfn : a.fn = b.fn) : a = b := by
  have : Std.Symm fun a b : OpRow => a.fam ≠ b.fam ∨ a.fn ≠ b.fn := ⟨fun _ _ h => h.imp Ne.symm Ne.symm⟩
  by_contra hne
  exact (opcodeMap_nodup.forall ha hb hne).elim (· hfam) (· hfn)

theorem find_row_some {w : Word} {row : OpRow}
    (h : opcodeMap.find? (fun r => r.fam == famOf w && r.fn == fnOf w) = some row) :
    row ∈ opcodeMap ∧ famOf w = row.fam ∧ fnOf w = row.fn := by
  obtain ⟨hfam, hfn⟩ : row.fam = famOf w ∧ row.fn = fnOf w := by simpa using List.find?_some h
  exact ⟨List.mem_of_find?_eq_some h, hfam.symm, hfn.symm⟩

theorem find_row_iff (w : Word) (row : OpRow) :
    opcodeMap.find? (fun r => r.fam == famOf w && r.fn == fnOf w) = some row ↔
      row ∈ opcodeMap ∧ famOf w = row.fam ∧ fnOf w = row.fn := by
  refine ⟨find_row_some, ?_⟩
  rintro ⟨hrow, hfam, hfn⟩
  cases h : opcodeMap.find? (fun r => r.fam == famOf w && r.fn == fnOf w) with
  | none => simpa [hfam, hfn] using List.find?_eq_none.1 h row hrow
  | some row' =>
    obtain ⟨hrow', hfam', hfn'⟩ := find_row_some h
    rw [opcodeMap_eq_of_code hrow' hrow (hfam'.symm.trans hfam) (hfn'.symm.trans hfn)]

/-- The mnemonic column of R96 names each row once. -/
theorem opcodeMap_mnemonics_nodup : (opcodeMap.map OpRow.mnemonic).Nodup := by decide

theorem mnemonic_make {row : OpRow} (hrow : row ∈ opcodeMap) (w : Word) : (row.make w).mnemonic = row.mnemonic :=
  have hcolumn : opcodeMap.map (fun r => (r.make w).mnemonic) = opcodeMap.map OpRow.mnemonic := rfl
  List.map_inj_left.1 hcolumn row hrow

/-! ## The operand check of a format -/

/-- The operands of a word of this format are legal (R89, R90). -/
def Format.operandLegal (w : Word) : Format → Bool
  | .sk => legalCount (kOf w)
  | .cw | .cr => legalField (fieldOf w)
  | _ => true

theorem Format.operandLegal_iff (f : Format) (w : Word) :
    f.operandLegal w = true ↔
      (f = .sk → (kOf w).toNat ≤ 8) ∧ (f = .cw ∨ f = .cr → (fieldOf w).toNat ≤ 9) := by
  cases f <;> simp [Format.operandLegal, legalCount, legalField, BitVec.le_def]

/-- Whether a row's command is well formed is a check of the row's format alone. -/
theorem wellFormed_make {row : OpRow} (hrow : row ∈ opcodeMap) (w : Word) :
    (row.make w).wellFormed = row.format.operandLegal w :=
  have hcolumn : opcodeMap.map (fun r => (r.make w).wellFormed) =
      opcodeMap.map (fun r => r.format.operandLegal w) := rfl
  List.map_inj_left.1 hcolumn row hrow

/-- What a decoded word says, in the columns of R96: one row has its FAM and FN, and passes its checks. -/
theorem decode_ok_iff_row (w : Word) (i : Instr) :
    decode w = .ok i ↔ ∃ row ∈ opcodeMap, (famOf w = row.fam ∧ fnOf w = row.fn) ∧
      row.format.reservedClear w = true ∧ row.format.operandLegal w = true ∧ row.make w = i := by
  simp only [decode_ok_iff, find_row_iff, and_assoc]
  refine exists_congr fun row => and_congr_right fun hrow => ?_
  rw [wellFormed_make hrow]

/-! ## Match and mask -/

/-- Under a mask that takes in FAM and FN whole, they are those of the masked word. -/
theorem code_of_masked_eq {w m : Word} {fam fn : BitVec 4} (htop : m.extractLsb' 24 8 = 0xFF#8)
    (h : w &&& m = encodeN fam fn) : famOf w = fam ∧ fnOf w = fn := by
  have hbyte : (w &&& m).extractLsb' 24 8 = w.extractLsb' 24 8 := by
    rw [BitVec.extractLsb'_and, htop]
    exact BitVec.and_allOnes
  rw [h] at hbyte
  rw [famOf_of_byte hbyte.symm, fnOf_of_byte hbyte.symm, ← famOf_of_byte rfl, ← fnOf_of_byte rfl,
    famOf_encodeN, fnOf_encodeN]
  exact ⟨rfl, rfl⟩

theorem reservedClear_of_masked_eq {f : Format} {w m : Word} {fam fn : BitVec 4}
    (hm : maskCovers f (m &&& 0x00FFFFFF#32) = true) (h : w &&& m = encodeN fam fn) : f.reservedClear w = true := by
  rw [reservedClear_iff_mask f _ w hm (zeroBits_le f), ← BitVec.and_assoc, h,
    ← reservedClear_iff_mask .n _ _ (by decide) (zeroBits_le .n)]
  exact reservedClear_encodeN fam fn

/-- The match and mask of a row say that FAM and FN are the row's and the reserved bits of its format are 0. -/
theorem masked_eq_match_iff {row : OpRow} (hrow : row ∈ opcodeMap) (w : Word) :
    w &&& row.maskWord = row.matchWord ↔
      (famOf w = row.fam ∧ fnOf w = row.fn) ∧ row.format.reservedClear w = true := by
  have hm := List.all_eq_true.1 opcodeMap_masks row hrow
  have hcols := List.all_eq_true.1 opcodeMap_matches row hrow
  simp only [Bool.and_eq_true, beq_iff_eq] at hcols
  obtain ⟨hmatch, htop⟩ := hcols
  rw [hmatch]
  constructor
  · intro h
    exact ⟨code_of_masked_eq htop h, reservedClear_of_masked_eq hm h⟩
  · rintro ⟨⟨hfam, hfn⟩, hc⟩
    exact Laws.masked_eq hm htop hfam hfn hc

theorem decodes_to_mnemonic_iff {row : OpRow} (hrow : row ∈ opcodeMap) (w : Word) :
    (∃ i, decode w = .ok i ∧ i.mnemonic = row.mnemonic) ↔
      w &&& row.maskWord = row.matchWord ∧ row.format.operandLegal w = true := by
  rw [masked_eq_match_iff hrow]
  constructor
  · rintro ⟨i, hd, hname⟩
    obtain ⟨row', hrow', hcode, hc, hlegal, rfl⟩ := (decode_ok_iff_row w i).1 hd
    rw [mnemonic_make hrow'] at hname
    obtain rfl : row' = row := List.inj_on_of_nodup_map opcodeMap_mnemonics_nodup hrow' hrow hname
    exact ⟨⟨hcode, hc⟩, hlegal⟩
  · rintro ⟨⟨hcode, hc⟩, hlegal⟩
    exact ⟨row.make w, (decode_ok_iff_row w _).2 ⟨row, hrow, hcode, hc, hlegal, rfl⟩, mnemonic_make hrow w⟩

/-- Settles O3: a row's match and mask are its FAM, FN and reserved bits, and its mnemonic names no other row. -/
theorem opcodeMapDecides : Obligations.OpcodeMapDecides := by
  refine ⟨rfl, fun w row hrow => ?_⟩
  rw [decodes_to_mnemonic_iff hrow w, Format.operandLegal_iff]
  rfl

/-! ## Reserved words -/

/-- The functions R88 lists, family by family; the families from 7 on are reserved (R87). -/
abbrev ListedFunction (fam fn : Nat) : Prop :=
  (fam = 0 ∧ fn < 12) ∨ (fam = 1 ∧ fn < 4) ∨ (fam = 2 ∧ fn < 4) ∨ (fam = 3 ∧ fn < 8) ∨ (fam = 4 ∧ fn < 4) ∨
  (fam = 5 ∧ fn < 1) ∨ (fam = 6 ∧ fn < 2)

/-- A row of the opcode map has a listed function, and its format has the operand of R89 or R90 where they check one. -/
theorem opcodeMap_rows_listed : ∀ row ∈ opcodeMap, ListedFunction row.fam.toNat row.fn.toNat ∧
    ((row.fam.toNat = 1 ∨ row.fam.toNat = 2) ∧ row.fn.toNat = 3 → row.format = .sk) ∧
    (row.fam.toNat = 6 → row.format = .cw ∨ row.format = .cr) := by decide

/-- A word that decodes has a listed function, and a legal count or field number where its command has one. -/
theorem decode_ok_listed {w : Word} {i : Instr} (h : decode w = .ok i) :
    ListedFunction (famOf w).toNat (fnOf w).toNat ∧
    (((famOf w).toNat = 1 ∨ (famOf w).toNat = 2) ∧ (fnOf w).toNat = 3 → (kOf w).toNat ≤ 8) ∧
    ((famOf w).toNat = 6 → (fieldOf w).toNat ≤ 9) := by
  obtain ⟨row, hrow, ⟨hfam, hfn⟩, -, hlegal, -⟩ := (decode_ok_iff_row w i).1 h
  obtain ⟨hlisted, hsk, hcfg⟩ := opcodeMap_rows_listed row hrow
  obtain ⟨hk, hfield⟩ := (Format.operandLegal_iff _ w).1 hlegal
  rw [hfam, hfn]
  exact ⟨hlisted, fun hc => hk (hsk hc), fun hc => hfield (hcfg hc)⟩

/-- The step of a word that stands for no command (R92, R291). -/
theorem step_of_decode_error {w : Word} {e : DecodeError} {s : State} {rest : List Input}
    (hs : s.inputs = .command w :: rest) (hd : decode w = .error e) :
    step s = .next (failed 1 { s with inputs := rest }) := by
  simp only [step, takeInput, hs, applyInput, runCommand, hd, fail_eq_failed]
  rfl

/-- Settles O4: a word that decodes has a listed function and legal operands, so a reserved word does not decode. -/
theorem reservedWordsAreIllegal : Obligations.ReservedWordsAreIllegal := by
  intro w s rest hs hreserved
  cases hd : decode w with
  | error e => exact step_of_decode_error hs hd
  | ok i =>
    obtain ⟨hfn, hk, hfield⟩ := decode_ok_listed hd
    simp only [famOf, fnOf, kOf, fieldOf] at hfn hk hfield
    omega

end Sys2Proof
end

section
/-! PROOFS. The CRC family (40_crc.md R113–R116, R118): the words and the whole effect of its four commands, and the
residue of a message followed by its own CRC. Settles O21 and O24. -/

namespace Sys2Proof

open Machine

/-! ## The register and the CRC -/

/-- The final complement of R111 is its own inverse, so the register value comes back from the CRC. -/
theorem crc8_xor_ones (init : Byte) (d : List Byte) : crc8 init d ^^^ 0xFF#8 = crcFeed init d := by
  simp only [crc8, BitVec.xor_assoc, BitVec.xor_self, BitVec.xor_zero]

theorem crcFeed_append_crc8 (init : Byte) (d : List Byte) : crcFeed init (d ++ [crc8 init d]) = 0xC4#8 :=
  calc crcFeed init (d ++ [crc8 init d])
    _ = crc8Step (crcFeed init d) (crcFeed init d ^^^ 0xFF#8) := crcFeed_append init d _
    _ = Nat.repeat crcShift 8 0xFF#8 := crc8Step_xor_self _ _
    _ = 0xC4#8 := by decide

/-- Settles O24: feeding the register's complement makes the register forget the message and the initial value. -/
theorem crcResidue : Obligations.CrcResidue := by
  intro init d
  refine ⟨crcFeed_append_crc8 init d, ?_⟩
  rw [crc8, crcFeed_append_crc8]
  decide

/-! ## Operands -/

theorem legalCount_iff (k : BitVec 4) : legalCount k = true ↔ k.toNat ≤ 8 := by
  simp [legalCount, BitVec.le_def]

/-- The decoder's `src` field is the bit w[12] of R84. -/
theorem srcOf_eq_wSrc (w : Word) : srcOf w = wSrc w := by
  have hbit : w.extractLsb' 12 1 = 1#1 ↔ w.getLsbD 12 = true := by
    rw [BitVec.getLsbD_eq_extractLsb', beq_iff_eq]
  simp only [srcOf, wSrc, hbit]

/-! ## Responses and effects -/

@[simp] theorem crcData_toNat (r : Byte) : (crcData r).toNat = (r ^^^ 0xFF#8).toNat :=
  BitVec.toNat_setWidth_of_le (by decide)

theorem exec_crcInit (s : State) :
    exec .crcInit s = .next { s with crc := s.params.crc8Init, resp := some (okWord 0) } :=
  congrArg Host.Outcome.next (respond_eq 0 _)

theorem exec_crcFeed (b : Byte) (s : State) :
    exec (.crcFeed b) s = .next { s with
      crc := crc8Step s.crc b, resp := some (okWord (crc8Step s.crc b ^^^ 0xFF#8).toNat) } := by
  rw [← crcData_toNat]
  exact congrArg Host.Outcome.next (respond_eq _ _)

theorem exec_crcRd (s : State) :
    exec .crcRd s = .next { s with resp := some (okWord (s.crc ^^^ 0xFF#8).toNat) } := by
  rw [← crcData_toNat]
  exact congrArg Host.Outcome.next (respond_eq _ _)

/-- CRC.BUF of more bytes than a buffer holds (R89). -/
theorem exec_crcBuf_of_gt {k : BitVec 4} (hk : 8 < k.toNat) (slot : Slot) (src : BufSrc) (s : State) :
    exec (.crcBuf slot src k) s = .next (failed 1 s) := by
  have hillegal : ¬ legalCount k = true := by rw [legalCount_iff]; omega
  exact (if_neg hillegal).trans (congrArg Host.Outcome.next (fail_eq_failed .illegal s))

/-- CRC.BUF of the first `k` bytes of either buffer (R116). -/
theorem exec_crcBuf_of_le {k : BitVec 4} (hk : k.toNat ≤ 8) (slot : Slot) (src : BufSrc) (s : State) :
    exec (.crcBuf slot src k) s = .next { s with
      crc := crc8 s.params.crc8Init ((s.buffer src slot).toList.take k.toNat) ^^^ 0xFF#8
      resp := some (okWord (crc8 s.params.crc8Init ((s.buffer src slot).toList.take k.toNat)).toNat) } := by
  rw [crc8_xor_ones, crc8, ← crcData_toNat]
  exact (if_pos ((legalCount_iff k).2 hk)).trans (congrArg Host.Outcome.next (respond_eq _ _))

/-- What CRC.RD answers in the state CRC.INIT leaves (R115). -/
theorem exec_crcRd_after_crcInit {s t : State} (h : exec .crcInit s = .next t) :
    exec .crcRd t = .next { t with resp := some (okWord (s.params.crc8Init ^^^ 0xFF#8).toNat) } := by
  rw [exec_crcInit] at h
  injection h with h
  subst h
  exact exec_crcRd _

/-- The default `CRC8_INIT` is 0xFF, whose complement is 0 (R8, R115). -/
theorem exec_crcRd_reset : exec .crcRd State.reset = .next { State.reset with resp := some (okWord 0) } :=
  exec_crcRd State.reset

/-! ## Words -/

theorem wordsRun_crcInit : WordsRun 0x10 0x00FFFFFF (fun _ => .crcInit) :=
  wordsRun_of_row crcRows[0] _ _ _ rfl (by decide) (fun _ => rfl) nofun

theorem wordsRun_crcFeed : WordsRun 0x11 0x00FFFF00 (fun w => .crcFeed (w.extractLsb' 0 8)) :=
  wordsRun_of_row crcRows[1] _ _ _ rfl (by decide) (fun _ => rfl) nofun

theorem wordsRun_crcRd : WordsRun 0x12 0x00FFFFFF (fun _ => .crcRd) :=
  wordsRun_of_row crcRows[2] _ _ _ rfl (by decide) (fun _ => rfl) nofun

theorem wordsRun_crcBuf :
    WordsRun 0x13 0x00F8EFF0 (fun w => .crcBuf (wSlot w) (wSrc w) (w.extractLsb' 0 4)) := by
  refine wordsRun_of_row crcRows[3] _ _ _ rfl (by decide) (fun w => ?_) fun w hill s => ?_
  · exact congrArg (Instr.crcBuf (wSlot w) · (w.extractLsb' 0 4)) (srcOf_eq_wSrc w)
  · have hk : ¬ (w.extractLsb' 0 4).toNat ≤ 8 := by
      rw [← legalCount_iff, Bool.not_eq_true]
      exact hill
    exact exec_crcBuf_of_gt (Nat.lt_of_not_le hk) _ _ s

/-- Settles O21: the words by their rows of R96, the effects command by command. -/
theorem crcCommands : Obligations.CrcCommands := by
  refine ⟨wordsRun_crcInit, wordsRun_crcFeed, wordsRun_crcRd, wordsRun_crcBuf, fun s b slot k => ?_⟩
  exact ⟨exec_crcInit s, exec_crcFeed b s, exec_crcRd s, fun hk src => exec_crcBuf_of_gt hk slot src s,
    fun hk => ⟨exec_crcBuf_of_le hk slot .tx s, exec_crcBuf_of_le hk slot .rx s⟩,
    fun _ h => exec_crcRd_after_crcInit h, exec_crcRd_reset⟩

end Sys2Proof
end

section
/-! PROOFS. The SUM family (41_checksum.md R130–R138): the key and the checksum as sums modulo 256, and the words and
the whole effect of its four commands. Settles O26, O27 and O28. -/

namespace Sys2Proof

open Machine

/-! ## The key and the checksum -/

theorem sum8_toNat (id : BitVec 11) (d : List Byte) :
    (sum8 id d).toNat = ((key id).toNat + (d.map BitVec.toNat).sum) % 256 :=
  foldl_add_toNat d (key id)

/-- Settles O27: each byte added carries on the sum modulo 256. -/
theorem checksumIsModularSum : Obligations.ChecksumIsModularSum :=
  fun id d => ⟨key_toNat id, sum8_toNat id d⟩

theorem sum8_perm (id : BitVec 11) {d d' : List Byte} (h : d.Perm d') : sum8 id d = sum8 id d' := by
  have hsum : (d.map BitVec.toNat).sum = (d'.map BitVec.toNat).sum := (h.map _).sum_eq
  apply BitVec.eq_of_toNat_eq
  rw [sum8_toNat, sum8_toNat, hsum]

theorem sum8_eq_of_key_eq {id id' : BitVec 11} (h : key id = key id') (d : List Byte) : sum8 id d = sum8 id' d :=
  congrArg (fun start => d.foldl (· + ·) start) h

/-- Settles O28: a sum of numbers has no order, and the id enters it through its key alone. -/
theorem checksumIgnoresOrder : Obligations.ChecksumIgnoresOrder :=
  ⟨fun id _ _ h => sum8_perm id h, fun _ _ d h => sum8_eq_of_key_eq h d, by decide, by decide⟩

/-! ## Effects -/

theorem setSum_eq (v : Byte) (s : State) : setSum v s = { s with sum := v, resp := some (okWord v.toNat) } := by
  have hdata : (v.setWidth 16).toNat = v.toNat := BitVec.toNat_setWidth_of_le (by decide)
  rw [setSum, respond_eq, hdata]

theorem exec_sumInit (id : BitVec 11) (s : State) :
    exec (.sumInit id) s = .next { s with sum := key id, resp := some (okWord (key id).toNat) } :=
  congrArg Host.Outcome.next (setSum_eq (key id) s)

theorem exec_sumFeed (b : Byte) (s : State) :
    exec (.sumFeed b) s = .next { s with
      sum := BitVec.ofNat 8 ((s.sum.toNat + b.toNat) % 256)
      resp := some (okWord ((s.sum.toNat + b.toNat) % 256)) } := by
  have hsum : (s.sum + b).toNat = (s.sum.toNat + b.toNat) % 256 := BitVec.toNat_add s.sum b
  rw [← hsum, BitVec.ofNat_toNat, BitVec.setWidth_eq]
  exact congrArg Host.Outcome.next (setSum_eq (s.sum + b) s)

theorem exec_sumRd (s : State) : exec .sumRd s = .next { s with resp := some (okWord s.sum.toNat) } := by
  have hdata : (s.sum.setWidth 16).toNat = s.sum.toNat := BitVec.toNat_setWidth_of_le (by decide)
  rw [← hdata]
  exact congrArg Host.Outcome.next (respond_eq _ s)

/-- SUM.BUF of more bytes than a buffer holds (R89). -/
theorem exec_sumBuf_of_gt {k : BitVec 4} (hk : 8 < k.toNat) (slot : Slot) (src : BufSrc) (s : State) :
    exec (.sumBuf slot src k) s = .next (failed 1 s) := by
  have hillegal : ¬ legalCount k = true := by rw [legalCount_iff]; omega
  exact (if_pos hillegal).trans (congrArg Host.Outcome.next (fail_eq_failed .illegal s))

/-- SUM.BUF of a slot without a valid id (R136). -/
theorem exec_sumBuf_of_invalid {k : BitVec 4} {slot : Slot} {s : State} (hk : k.toNat ≤ 8)
    (hinvalid : s.tbl[slot].valid = false) (src : BufSrc) :
    exec (.sumBuf slot src k) s = .next (failed 6 s) := by
  have hlegal : ¬ ¬ legalCount k = true := not_not.2 ((legalCount_iff k).2 hk)
  exact (if_neg hlegal).trans ((if_pos hinvalid).trans (congrArg Host.Outcome.next (fail_eq_failed .slot s)))

/-- SUM.BUF of the first `k` bytes of either buffer, from the key of the slot's id (R136). -/
theorem exec_sumBuf_of_valid {k : BitVec 4} {slot : Slot} {s : State} (hk : k.toNat ≤ 8)
    (hvalid : s.tbl[slot].valid = true) (src : BufSrc) :
    exec (.sumBuf slot src k) s = .next { s with
      sum := sum8 s.tbl[slot].id ((s.buffer src slot).toList.take k.toNat)
      resp := some (okWord (sum8 s.tbl[slot].id ((s.buffer src slot).toList.take k.toNat)).toNat) } := by
  have hlegal : ¬ ¬ legalCount k = true := not_not.2 ((legalCount_iff k).2 hk)
  have hvalid : ¬ s.tbl[slot].valid = false := ne_false_of_eq_true hvalid
  exact (if_neg hlegal).trans ((if_neg hvalid).trans (congrArg Host.Outcome.next (setSum_eq _ s)))

/-! ## Words -/

theorem wordsRun_sumInit : WordsRun 0x20 0x00FFF800 (fun w => .sumInit (w.extractLsb' 0 11)) :=
  wordsRun_of_row sumRows[0] _ _ _ rfl (by decide) (fun _ => rfl) nofun

theorem wordsRun_sumFeed : WordsRun 0x21 0x00FFFF00 (fun w => .sumFeed (w.extractLsb' 0 8)) :=
  wordsRun_of_row sumRows[1] _ _ _ rfl (by decide) (fun _ => rfl) nofun

theorem wordsRun_sumRd : WordsRun 0x22 0x00FFFFFF (fun _ => .sumRd) :=
  wordsRun_of_row sumRows[2] _ _ _ rfl (by decide) (fun _ => rfl) nofun

theorem wordsRun_sumBuf :
    WordsRun 0x23 0x00F8EFF0 (fun w => .sumBuf (wSlot w) (wSrc w) (w.extractLsb' 0 4)) := by
  refine wordsRun_of_row sumRows[3] _ _ _ rfl (by decide) (fun w => ?_) fun w hill s => ?_
  · exact congrArg (Instr.sumBuf (wSlot w) · (w.extractLsb' 0 4)) (srcOf_eq_wSrc w)
  · have hk : ¬ (w.extractLsb' 0 4).toNat ≤ 8 := by
      rw [← legalCount_iff]
      exact ne_true_of_eq_false hill
    exact exec_sumBuf_of_gt (Nat.lt_of_not_le hk) _ _ s

/-- Settles O26: the words by their rows of R96, the effects command by command. -/
theorem sumCommands : Obligations.SumCommands := by
  refine ⟨wordsRun_sumInit, wordsRun_sumFeed, wordsRun_sumRd, wordsRun_sumBuf, fun s id b slot k => ?_⟩
  exact ⟨exec_sumInit id s, exec_sumFeed b s, exec_sumRd s, fun hk src => exec_sumBuf_of_gt hk slot src s,
    fun hk hinvalid src => exec_sumBuf_of_invalid hk hinvalid src,
    fun hk hvalid => ⟨exec_sumBuf_of_valid hk hvalid .tx, exec_sumBuf_of_valid hk hvalid .rx⟩,
    exec_sumRd State.reset⟩

end Sys2Proof
end

section
/-! PROOFS. The frames of FRM.TX authenticate (41_checksum.md R137, 43_frame_mux.md R213): each is a built payload of its
slot, the authentication byte of a payload is computed from bytes it does not overwrite, and a locked table is one whose
authentication byte follows the bytes it covers (R248). Settles O42. -/

namespace Sys2Proof

open Machine

/-! ## The authentication byte of a payload -/

theorem authenticate_sum {e : TblEntry} (hkind : e.kind = .sum) (ps : Params) (d : List Byte) (v : Counter) (p : Fin 2) :
    authenticate ps e d v p = d.set e.pos.toNat (sum8 e.id (d.take e.k.toNat)) := by
  simp only [authenticate, hkind]

theorem authenticate_crc {e : TblEntry} (hkind : e.kind = .crc) (ps : Params) (d : List Byte) (v : Counter) (p : Fin 2) :
    authenticate ps e d v p = d.set e.pos.toNat (crc8 ps.crc8Init (d.take e.k.toNat)) := by
  simp only [authenticate, hkind]

section Payload

variable (s : State) (slot : Slot) (v : Counter) (sel : CmdSel) (p : Fin 2)

/-- The payload of a slot before its authentication byte is written (R184). -/
def placedPayload : List Byte :=
  placeCtr s.tbl[slot] v (placeCmd s.tbl[slot] sel (s.txbuf[slot].toList.take s.tbl[slot].len.toNat))

theorem build_eq_authenticate :
    build s slot v sel p = authenticate s.params s.tbl[slot] (placedPayload s slot v sel) v p := rfl

theorem placedPayload_length (hlen : s.tbl[slot].len.toNat ≤ 8) :
    (placedPayload s slot v sel).length = s.tbl[slot].len.toNat := by
  simpa [placedPayload] using hlen

/-- The authentication byte of a built payload is that of the payload as built, for a scheme `auth` of the first `k`
bytes: written at or after them, it leaves them as they are (R185, R137). -/
theorem build_authByte (auth : List Byte → Byte) (hlen : s.tbl[slot].len.toNat ≤ 8)
    (hpos : s.tbl[slot].pos.toNat < s.tbl[slot].len.toNat) (hk : s.tbl[slot].k.toNat ≤ s.tbl[slot].pos.toNat)
    (hauth : ∀ d, authenticate s.params s.tbl[slot] d v p =
      d.set s.tbl[slot].pos.toNat (auth (d.take s.tbl[slot].k.toNat))) :
    (build s slot v sel p)[s.tbl[slot].pos.toNat]? =
      some (auth ((build s slot v sel p).take s.tbl[slot].k.toNat)) := by
  rw [← placedPayload_length s slot v sel hlen] at hpos
  rw [build_eq_authenticate, hauth, List.take_set_of_le hk, List.getElem?_set_self hpos]

end Payload

/-! ## The frames of one FRM.TX -/

theorem mem_framed {e : TblEntry} {d : List Byte} {f : Frame} :
    f ∈ framed e d ↔ f.bus ∈ buses e.txMask ∧ f.id = e.id ∧ f.len = e.len ∧ f.data = d := by
  rw [framed, List.mem_map]
  constructor
  · rintro ⟨b, hb, rfl⟩
    exact ⟨hb, rfl, rfl, rfl⟩
  · rintro ⟨hb, hid, hlen, hdata⟩
    exact ⟨f.bus, hb, by rw [← hid, ← hlen, ← hdata]⟩

/-- Whatever the class and family, a frame of the slot is one of its built payloads on one of its buses (R191–R199). -/
theorem mem_txFrames {s : State} {slot : Slot} {f : Frame} (h : f ∈ txFrames s slot) :
    ∃ v sel p, f ∈ framed s.tbl[slot] (build s slot v sel p) := by
  unfold txFrames at h
  split at h
  case h_1 | h_2 => exact ⟨_, _, _, h⟩
  case h_3 =>
    split at h
    case h_1 => exact ⟨_, _, _, h⟩
    case h_2 => exact absurd h List.not_mem_nil
  case h_4 | h_6 =>
    obtain ⟨v, -, h⟩ := List.mem_flatMap.1 h
    exact ⟨v, _, _, h⟩
  case h_5 =>
    obtain h | h := List.mem_append.1 h
    · exact ⟨_, _, _, h⟩
    · exact ⟨_, _, _, h⟩

/-- FRM.TX appends nothing when a check fails, and the frames of its slot when none does (R186). -/
theorem frmTx_appends {s t : State} {slot : Slot} (h : exec (.frmTx slot) s = .next t) :
    t.out = s.out ∨ txError s slot = none ∧ t.out = s.out ++ txFrames s slot := by
  change execFrmTx slot s = .next t at h
  cases herr : txError s slot with
  | some e =>
    simp only [execFrmTx, herr] at h
    injection h with h
    exact .inl (by rw [← h, fail_out])
  | none =>
    rw [execFrmTx_of_ok herr] at h
    injection h with h
    exact .inr ⟨rfl, by rw [← h]⟩

/-- A slot FRM.TX may emit has passed the structural checks of LOCK (R246, R248). -/
theorem structureOk_of_txReady {s : State} {slot : Slot} (hinv : s.Inv) (h : TxReady s slot) :
    s.tbl[slot].StructureOk := by
  obtain ⟨hlocked, hvalid, -⟩ := h
  exact (validTable_entry (hinv.lock hlocked) slot hvalid).1

/-- Settles O42: the emitted payloads are built ones, and the structural checks of the locked table put the
authentication byte after its covered bytes and the counter byte among them. -/
theorem emittedFramesAuthenticate : Obligations.EmittedFramesAuthenticate := by
  intro s t slot hinv hexec e
  obtain hout | ⟨hok, hout⟩ := frmTx_appends hexec
  · exact ⟨[], by rw [hout, List.append_nil], nofun⟩
  refine ⟨txFrames s slot, hout, fun f hf => ?_⟩
  obtain ⟨hready, -⟩ := txError_none hok
  obtain ⟨⟨-, hlen⟩, -, hauth, -, hctr⟩ := structureOk_of_txReady hinv hready
  obtain ⟨v, sel, p, hf⟩ := mem_txFrames hf
  obtain ⟨hbus, hid, hflen, hdata⟩ := mem_framed.1 hf
  obtain ⟨-, hbus⟩ := (mem_buses _ _).1 hbus
  rw [hdata]
  refine ⟨hid, hflen, ?_, hbus, fun hkind => ?_, fun hkind => ?_, fun hkind hen => ?_⟩
  · rw [build_length, Nat.min_eq_left hlen]
  · obtain ⟨hk, hpos⟩ := hauth (.inl hkind)
    exact build_authByte s slot v sel p _ hlen hpos hk fun d => authenticate_sum hkind s.params d v p
  · obtain ⟨hk, hpos⟩ := hauth (.inr hkind)
    exact build_authByte s slot v sel p _ hlen hpos hk fun d => authenticate_crc hkind s.params d v p
  · obtain ⟨-, hcovered, -⟩ := hctr hen
    exact hcovered hkind

end Sys2Proof
end

section
/-! PROOFS. The CNT family (42_counter.md R151–R159): the words and the whole effect of its eight commands, the counter
values in the numbers of the rules, and where an own counter can reach. Settles O29 and O30. -/

namespace Sys2Proof

open Machine

/-! ## Counter values as numbers -/

/-- A counter advances modulo 2 to the power of its width (R153, R159). -/
theorem succ_eq_ofNat_mod {w : Nat} (c : BitVec w) : c + 1#w = BitVec.ofNat w ((c.toNat + 1) % 2 ^ w) := by
  have hwrap : (c + 1#w).toNat = (c.toNat + 1) % 2 ^ w := by
    rw [BitVec.toNat_add, BitVec.toNat_ofNat, Nat.add_mod_mod]
  rw [← hwrap, BitVec.ofNat_toNat, BitVec.setWidth_eq]

/-- `steer_ctr(CYC)` as a number (R151). -/
theorem steerCtr_toNat (c : BitVec 32) : (steerCtr c).toNat = c.toNat / 2 % 16 := by
  rw [steerCtr, BitVec.extractLsb'_toNat, Nat.shiftRight_eq_div_pow, Nat.pow_one]

/-- A flag over a counter, the layout CNT.OBS and CNT.POP answer in (R155, R158). -/
theorem flagged_toNat (flag : Bool) (v : Counter) :
    ((BitVec.ofBool flag ++ v).setWidth 16).toNat = 16 * flag.toNat + v.toNat := by
  rw [BitVec.toNat_setWidth_of_le (by decide), BitVec.toNat_append, BitVec.toNat_ofBool,
    ← Nat.shiftLeft_add_eq_or_of_lt v.isLt, Nat.shiftLeft_eq, Nat.mul_comm]

/-- The stored frame's arrival is counted modulo 256 (R159, R207). -/
theorem storeFrame_rxcnt_self (slot : Slot) (f : RxFrame) (s : State) :
    (storeFrame slot f s).rxcnt[slot] = BitVec.ofNat 8 ((s.rxcnt[slot].toNat + 1) % 256) := by
  rw [storeFrame_rxcnt, set_slot, if_pos rfl]
  exact succ_eq_ofNat_mod s.rxcnt[slot]

/-! ## Effects -/

/-- A command that ends in `respond` answers its data as a number (R83). -/
theorem next_respond_eq {d : BitVec 16} {n : Nat} (h : d.toNat = n) (s : State) :
    (.next (respond d s) : Result) = .next { s with resp := some (okWord n) } := by
  rw [respond_eq, h]

/-- The response DATA holds 16 bits of a number, the FIFO's length among them (R83, R157). -/
theorem okWord_mod (n : Nat) : okWord (n % 2 ^ 16) = okWord n :=
  congrArg (BitVec.ofNat 21) (Nat.mod_mod n 65536)

theorem exec_cntLd (slot : Slot) (v : BitVec 4) (s : State) :
    exec (.cntLd slot v) s = .next { s with ctr := s.ctr.set slot v, resp := some (okWord 0) } :=
  next_respond_eq rfl (setCtr slot v s)

theorem exec_cntInc (slot : Slot) (s : State) :
    exec (.cntInc slot) s = .next { s with
      ctr := s.ctr.set slot (BitVec.ofNat 4 ((s.ctr[slot].toNat + 1) % 16))
      resp := some (okWord ((s.ctr[slot].toNat + 1) % 16)) } := by
  have hdata : ((s.ctr[slot] + 1).setWidth 16).toNat = (s.ctr[slot].toNat + 1) % 16 :=
    (BitVec.toNat_setWidth_of_le (by decide)).trans (BitVec.toNat_add s.ctr[slot] 1)
  have hnew : s.ctr[slot] + 1 = BitVec.ofNat 4 ((s.ctr[slot].toNat + 1) % 16) := succ_eq_ofNat_mod s.ctr[slot]
  rw [← hnew]
  exact next_respond_eq hdata (setCtr slot (s.ctr[slot] + 1) s)

theorem exec_cntRd (slot : Slot) (s : State) :
    exec (.cntRd slot) s = .next { s with resp := some (okWord s.ctr[slot].toNat) } :=
  next_respond_eq (BitVec.toNat_setWidth_of_le (by decide)) s

/-- Every own counter is 0 after reset (R24, R320). -/
theorem exec_cntRd_reset (slot : Slot) :
    exec (.cntRd slot) State.reset = .next { State.reset with resp := some (okWord 0) } := by
  have hzero : State.reset.ctr[slot] = 0#4 := Vector.getElem_replicate slot.isLt
  rw [exec_cntRd, hzero]
  rfl

theorem exec_cntObs (slot : Slot) (s : State) :
    exec (.cntObs slot) s = .next { s with
      resp := some (okWord (16 * s.lastv[slot].toNat + s.last[slot].toNat)) } :=
  next_respond_eq (flagged_toNat s.lastv[slot] s.last[slot]) s

/-- Before any capture a legal state holds 0 as the last counter (R155). -/
theorem exec_cntObs_of_unobserved {slot : Slot} {s : State} (hinv : s.Inv) (hunseen : s.lastv[slot] = false) :
    exec (.cntObs slot) s = .next { s with resp := some (okWord 0) } := by
  obtain ⟨-, hlast⟩ := hinv.observed slot
  rw [exec_cntObs, hunseen, hlast hunseen]
  rfl

/-- CNT.POP of an empty FIFO (R158). -/
theorem exec_cntPop_of_nil {slot : Slot} {s : State} (hempty : s.fifo[slot] = []) :
    exec (.cntPop slot) s = .next { s with resp := some (okWord 0) } := by
  rw [exec, execCntPop, hempty]
  exact next_respond_eq rfl s

/-- CNT.POP of the oldest value of a FIFO (R158). -/
theorem exec_cntPop_of_cons {slot : Slot} {s : State} {v : Counter} {q : List Counter} (hq : s.fifo[slot] = v :: q) :
    exec (.cntPop slot) s = .next { s with
      fifo := s.fifo.set slot q, resp := some (okWord (16 + v.toNat)) } := by
  rw [exec, execCntPop, hq]
  exact next_respond_eq (flagged_toNat true v) (setFifo slot q s)

theorem exec_cntFlen (slot : Slot) (s : State) :
    exec (.cntFlen slot) s = .next { s with resp := some (okWord s.fifo[slot].length) } := by
  rw [← okWord_mod]
  exact next_respond_eq (BitVec.toNat_ofNat _ 16) s

/-- The depth bounds the FIFO of a legal state, and only a LONG slot has one (R38, R157). -/
theorem fifo_length_of_inv {s : State} (hinv : s.Inv) (slot : Slot) :
    s.fifo[slot].length ≤ s.params.fifoDepth ∧ (s.tbl[slot].cls ≠ .long → s.fifo[slot].length = 0) := by
  obtain ⟨hdepth, hlong⟩ := hinv.fifo slot
  exact ⟨hdepth, fun hcls => List.length_eq_zero_iff.2 (hlong hcls)⟩

theorem exec_cntSteer (s : State) :
    exec .cntSteer s = .next { s with resp := some (okWord (s.cyc.toNat / 2 % 16)) } :=
  next_respond_eq ((BitVec.toNat_setWidth_of_le (by decide)).trans (steerCtr_toNat s.cyc)) s

theorem exec_cntRxc (slot : Slot) (s : State) :
    exec (.cntRxc slot) s = .next { s with resp := some (okWord s.rxcnt[slot].toNat) } :=
  next_respond_eq (BitVec.toNat_setWidth_of_le (by decide)) s

/-! ## Words -/

theorem wordsRun_cntLd : WordsRun 0x30 0x00F8FFF0 (fun w => .cntLd (wSlot w) (w.extractLsb' 0 4)) :=
  wordsRun_of_row cntRows[0] _ _ _ rfl (by decide) (fun _ => rfl) nofun

theorem wordsRun_cntInc : WordsRun 0x31 0x00F8FFFF (fun w => .cntInc (wSlot w)) :=
  wordsRun_of_row cntRows[1] _ _ _ rfl (by decide) (fun _ => rfl) nofun

theorem wordsRun_cntRd : WordsRun 0x32 0x00F8FFFF (fun w => .cntRd (wSlot w)) :=
  wordsRun_of_row cntRows[2] _ _ _ rfl (by decide) (fun _ => rfl) nofun

theorem wordsRun_cntObs : WordsRun 0x33 0x00F8FFFF (fun w => .cntObs (wSlot w)) :=
  wordsRun_of_row cntRows[3] _ _ _ rfl (by decide) (fun _ => rfl) nofun

theorem wordsRun_cntPop : WordsRun 0x34 0x00F8FFFF (fun w => .cntPop (wSlot w)) :=
  wordsRun_of_row cntRows[4] _ _ _ rfl (by decide) (fun _ => rfl) nofun

theorem wordsRun_cntFlen : WordsRun 0x35 0x00F8FFFF (fun w => .cntFlen (wSlot w)) :=
  wordsRun_of_row cntRows[5] _ _ _ rfl (by decide) (fun _ => rfl) nofun

theorem wordsRun_cntSteer : WordsRun 0x36 0x00FFFFFF (fun _ => .cntSteer) :=
  wordsRun_of_row cntRows[6] _ _ _ rfl (by decide) (fun _ => rfl) nofun

theorem wordsRun_cntRxc : WordsRun 0x37 0x00F8FFFF (fun w => .cntRxc (wSlot w)) :=
  wordsRun_of_row cntRows[7] _ _ _ rfl (by decide) (fun _ => rfl) nofun

/-! ## Where an own counter reaches -/

/-- The frames of the classes STEER, LONG and CANCEL take their counters from CYC, FIFO and LAST (R193–R199). -/
theorem txFrames_with_ctr {s : State} {slot : Slot} (c : Vector Counter 8) (hcls : s.tbl[slot].cls ≠ .other) :
    txFrames { s with ctr := c } slot = txFrames s slot := by
  cases h : s.tbl[slot].cls with
  | other => exact absurd h hcls
  | steer =>
    simp only [txFrames, h]
    rfl
  | long | cancel =>
    cases hfam : s.fam <;>
      · simp only [txFrames, h, hfam]
        rfl

/-! ## The obligations -/

/-- Settles O29: the words by their rows of R96, the effects command by command, and no counter source of the classes
above OTHER is an own counter. -/
theorem ownCounterCommands : Obligations.OwnCounterCommands := by
  refine ⟨wordsRun_cntLd, wordsRun_cntInc, wordsRun_cntRd, fun s slot v => ?_, fun _ _ c hcls => txFrames_with_ctr c hcls⟩
  exact ⟨exec_cntLd slot v s, exec_cntInc slot s, exec_cntRd slot s, exec_cntRd_reset slot⟩

/-- Settles O30: the words by their rows of R96, the effects command by command, and the FIFO and LAST clauses of the
invariant. -/
theorem observedCounterCommands : Obligations.ObservedCounterCommands := by
  refine ⟨wordsRun_cntObs, wordsRun_cntPop, wordsRun_cntFlen, wordsRun_cntSteer, wordsRun_cntRxc, fun s slot => ?_⟩
  exact ⟨exec_cntObs slot s, exec_cntObs_of_unobserved, exec_cntPop_of_nil, fun _ _ => exec_cntPop_of_cons,
    exec_cntFlen slot s, fun hinv => fifo_length_of_inv hinv slot, exec_cntSteer s, exec_cntRxc slot s,
    fun f => storeFrame_rxcnt_self slot f s⟩

end Sys2Proof
end

section
/-! PROOFS. The rule of `setfield` (43_frame_mux.md R181), bit by bit. Settles O33. -/

namespace Sys2Proof

open Machine

/-- The low `w` bits of a byte, all of them where `w` is 8 or more. -/
theorem lowOnes_getLsbD (w : Nat) {i : Nat} (hi : i < 8) : ((1#8 <<< w) - 1#8).getLsbD i = decide (i < w) := by
  have hpow : (1#8 <<< w) - 1#8 = BitVec.ofNat 8 (2 ^ w - 1) := by
    rw [← BitVec.ofNat_sub_ofNat_of_le _ _ (by decide) Nat.one_le_two_pow]
    refine congrArg (· - 1#8) (BitVec.eq_of_toNat_eq ?_)
    rw [BitVec.toNat_shiftLeft, BitVec.toNat_ofNat, BitVec.toNat_ofNat, Nat.one_mod, Nat.one_shiftLeft]
  rw [hpow, BitVec.getLsbD_ofNat, Nat.testBit_two_pow_sub_one, decide_eq_true hi, Bool.true_and]

/-- Within its byte, `setfield` gives the bits of its field from `x` and keeps the others (R181). -/
theorem insertBits_getLsbD (old x : Byte) (lsb w : Nat) {b : Nat} (hb : b < 8) :
    (insertBits old lsb w x).getLsbD b =
      if lsb ≤ b ∧ b < lsb + w then x.getLsbD (b - lsb) else old.getLsbD b := by
  have hmask : (((1#8 <<< w) - 1#8) <<< lsb).getLsbD b = decide (lsb ≤ b ∧ b < lsb + w) := by
    rw [BitVec.getLsbD_shiftLeft, lowOnes_getLsbD w (by omega)]
    simp only [hb, decide_true, Bool.true_and, ← decide_not, ← Bool.decide_and]
    exact decide_eq_decide.2 (by omega)
  simp only [insertBits, BitVec.getLsbD_or, BitVec.getLsbD_and, BitVec.getLsbD_not, BitVec.getLsbD_shiftLeft x, hmask]
  by_cases hfield : lsb ≤ b ∧ b < lsb + w
  · have hlow : ¬ b < lsb := Nat.not_lt.2 hfield.1
    simp [hfield, hb, hlow, -BitVec.getLsbD_eq_getElem]
  · simp [hfield, hb]

/-- Settles O33: `setfield` modifies one byte, and in it the bits of its field. -/
theorem setFieldWritesOnlyItsBits : Obligations.SetFieldWritesOnlyItsBits := by
  intro d j lsb w x i b hi hb
  refine ⟨by rwa [setField_length], ?_⟩
  simp only [setField, List.getElem_modify]
  by_cases hij : j = i
  · subst hij
    simp only [if_true, true_and, insertBits_getLsbD _ _ _ _ hb]
  · simp only [hij, Ne.symm hij, if_false, false_and]

end Sys2Proof
end

section
/-! PROOFS. FRM.TX (43_frame_mux.md R186–R200): the condition of each of its checks, the frames of each class and family
and their number, and the whole effect of the command. Settles O37, O38, O39, O40 and O41. -/

namespace Sys2Proof

open Machine

/-! ## The checks -/

/-- The slot's class may still be emitted in this cycle; OTHER always may (R189). -/
abbrev InClassOrder (s : State) (slot : Slot) : Prop :=
  s.tbl[slot].cls = .other ∨ s.phase.toNat ≤ s.tbl[slot].cls.bits.toNat

/-- Parity of the cycle counter, as a bit and as a number (R195). -/
theorem oddCycle_iff (c : BitVec 32) : c.getLsbD 0 = true ↔ c.toNat % 2 = 1 := by
  rw [BitVec.getLsbD, Nat.testBit_zero, decide_eq_true_iff]

section Checks

variable {s : State} {slot : Slot}

theorem outOfOrder_iff :
    (s.tbl[slot].cls ≠ .other ∧ s.tbl[slot].cls.bits < s.phase) ↔ ¬ InClassOrder s slot := by
  rw [InClassOrder, not_or, Nat.not_le, BitVec.lt_def]

theorem txError_of_unlocked (h : s.locked = false) : txError s slot = some .notLocked := if_pos h

theorem txError_of_disabled (hlocked : s.locked = true) (h : s.tbl[slot].valid = false ∨ s.tbl[slot].txEn = false) :
    txError s slot = some .slot := by
  rw [txError, if_neg (by simp [hlocked]), if_pos h]

/-- On a slot that may emit, the checks left are those of the class (R186). -/
theorem txError_of_ready (h : TxReady s slot) :
    txError s slot =
      if ¬ InClassOrder s slot then some .order
      else if s.tbl[slot].cls = .steer ∧ s.cyc.toNat % 2 = 1 then some .parity
      else if s.tbl[slot].cls = .long ∧ s.fam = .a ∧ s.fifo[slot] = [] then some .noCtr
      else if s.tbl[slot].cls = .cancel ∧ s.lastv[slot] = false then some .noCtr
      else none := by
  obtain ⟨hlocked, hvalid, hen⟩ := h
  simp only [txError, hlocked, hvalid, hen, outOfOrder_iff, oddCycle_iff, Bool.true_eq_false, or_self, if_false]

theorem txError_eq_none (hready : TxReady s slot) (horder : InClassOrder s slot)
    (heven : s.tbl[slot].cls = .steer → s.cyc.toNat % 2 = 0)
    (hbuffered : s.tbl[slot].cls = .long → s.fam = .a → s.fifo[slot] ≠ [])
    (hobserved : s.tbl[slot].cls = .cancel → s.lastv[slot] = true) : txError s slot = none := by
  rw [txError_of_ready hready, if_neg (not_not.2 horder), if_neg, if_neg, if_neg]
  · rintro ⟨hcls, hunseen⟩
    exact absurd (hobserved hcls) (by simp [hunseen])
  · rintro ⟨hcls, hfam, hempty⟩
    exact hbuffered hcls hfam hempty
  · rintro ⟨hcls, hodd⟩
    exact absurd (heven hcls) (by omega)

end Checks

/-! ## Failures -/

section Failures

variable {s : State} {slot : Slot}

theorem exec_frmTx_of_error {e : ErrCode} (h : txError s slot = some e) :
    exec (.frmTx slot) s = .next (failed e.code.toNat s) := by
  simp only [exec, execFrmTx, h, fail_eq_failed]

theorem exec_frmTx_of_unlocked (h : s.locked = false) : exec (.frmTx slot) s = .next (failed 3 s) :=
  exec_frmTx_of_error (txError_of_unlocked h)

theorem exec_frmTx_of_disabled (hlocked : s.locked = true)
    (h : s.tbl[slot].valid = false ∨ s.tbl[slot].txEn = false) : exec (.frmTx slot) s = .next (failed 6 s) :=
  exec_frmTx_of_error (txError_of_disabled hlocked h)

theorem exec_frmTx_of_outOfOrder (hready : TxReady s slot) (h : ¬ InClassOrder s slot) :
    exec (.frmTx slot) s = .next (failed 7 s) :=
  exec_frmTx_of_error ((txError_of_ready hready).trans (if_pos h))

theorem exec_frmTx_of_oddCycle (hready : TxReady s slot) (horder : InClassOrder s slot)
    (hcls : s.tbl[slot].cls = .steer) (hodd : s.cyc.toNat % 2 = 1) :
    exec (.frmTx slot) s = .next (failed 8 s) := by
  refine exec_frmTx_of_error (e := .parity) ?_
  rw [txError_of_ready hready, if_neg (not_not.2 horder), if_pos ⟨hcls, hodd⟩]

theorem exec_frmTx_of_emptyFifo (hready : TxReady s slot) (horder : InClassOrder s slot)
    (hcls : s.tbl[slot].cls = .long) (hfam : s.fam = .a) (hempty : s.fifo[slot] = []) :
    exec (.frmTx slot) s = .next (failed 9 s) := by
  refine exec_frmTx_of_error (e := .noCtr) ?_
  rw [txError_of_ready hready, if_neg (not_not.2 horder), if_neg (by rw [hcls]; nofun), if_pos ⟨hcls, hfam, hempty⟩]

theorem exec_frmTx_of_unobserved (hready : TxReady s slot) (horder : InClassOrder s slot)
    (hcls : s.tbl[slot].cls = .cancel) (hunseen : s.lastv[slot] = false) :
    exec (.frmTx slot) s = .next (failed 9 s) := by
  refine exec_frmTx_of_error (e := .noCtr) ?_
  rw [txError_of_ready hready, if_neg (not_not.2 horder), if_neg (by rw [hcls]; nofun), if_neg (by rw [hcls]; nofun),
    if_pos ⟨hcls, hunseen⟩]

end Failures

theorem wordsRun_frmTx : WordsRun 0x50 0x00F8FFFF (fun w => .frmTx (wSlot w)) :=
  wordsRun_of_row frmRows[0] _ _ _ rfl (by decide) (fun _ => rfl) nofun

/-- Settles O37: the words by their row of R96, and the first failing check decides. -/
theorem frmTxFailures : Obligations.FrmTxFailures := by
  refine ⟨wordsRun_frmTx, ?_⟩
  intro s slot e rank inOrder
  have hrank : rank e.cls = e.cls.bits.toNat := by cases e.cls <;> rfl
  have hiff : inOrder ↔ InClassOrder s slot := by
    change (_ ∨ _ ≤ rank e.cls) ↔ _
    rw [hrank]
  rw [hiff]
  exact ⟨exec_frmTx_of_unlocked, exec_frmTx_of_disabled, exec_frmTx_of_outOfOrder, exec_frmTx_of_oddCycle,
    exec_frmTx_of_emptyFifo, exec_frmTx_of_unobserved⟩

/-! ## The frames of each class and family -/

section Frames

variable {s : State} {slot : Slot}

theorem txFrames_of_other (hcls : s.tbl[slot].cls = .other) :
    txFrames s slot = framed s.tbl[slot] (build s slot s.ctr[slot] .none 0) := by
  simp only [txFrames, hcls, onBuses_eq_framed]

theorem txFrames_of_steer (hcls : s.tbl[slot].cls = .steer) :
    txFrames s slot = framed s.tbl[slot] (build s slot (steerCtr s.cyc) .none 0) := by
  simp only [txFrames, hcls, onBuses_eq_framed]

/-- FamilyA takes the newest counter of the FIFO (R196). -/
theorem txFrames_of_long_a (hcls : s.tbl[slot].cls = .long) (hfam : s.fam = .a) {q : List Counter} {v : Counter}
    (hq : s.fifo[slot] = q ++ [v]) : txFrames s slot = framed s.tbl[slot] (build s slot v .none 0) := by
  simp only [txFrames, hcls, hfam, hq, List.getLast?_concat, onBuses_eq_framed]

/-- FamilyB takes every counter of the FIFO, oldest first (R197). -/
theorem txFrames_of_long_b (hcls : s.tbl[slot].cls = .long) (hfam : s.fam = .b) :
    txFrames s slot = (s.fifo[slot].map fun v => framed s.tbl[slot] (build s slot v .none 0)).flatten := by
  simp only [txFrames, hcls, hfam, onBuses_eq_framed, List.flatMap_def]

/-- The counter `i` places after the base of a cancel sequence, as a number (R198, R199). -/
theorem cancelBase_add (i : Nat) :
    cancelBase s slot + BitVec.ofNat 4 i = BitVec.ofNat 4 ((s.last[slot].toNat + 1 + i) % 16) := by
  apply BitVec.eq_of_toNat_eq
  have hone : (1 : Counter).toNat = 1 := rfl
  simp only [cancelBase, BitVec.toNat_add, BitVec.toNat_ofNat, hone]
  omega

theorem txFrames_of_cancel_a (hcls : s.tbl[slot].cls = .cancel) (hfam : s.fam = .a) :
    txFrames s slot =
      framed s.tbl[slot] (build s slot (BitVec.ofNat 4 ((s.last[slot].toNat + 1 + 0) % 16)) .active 0) ++
      framed s.tbl[slot] (build s slot (BitVec.ofNat 4 ((s.last[slot].toNat + 1 + 1) % 16)) .neutral 1) := by
  rw [← cancelBase_add, ← cancelBase_add, BitVec.add_zero]
  simp only [txFrames, hcls, hfam, onBuses_eq_framed]
  rfl

theorem txFrames_of_cancel_b (hcls : s.tbl[slot].cls = .cancel) (hfam : s.fam = .b) :
    txFrames s slot = ((List.range 16).map fun i => framed s.tbl[slot]
      (build s slot (BitVec.ofNat 4 ((s.last[slot].toNat + 1 + i) % 16)) .active 0)).flatten := by
  simp only [txFrames, hcls, hfam, onBuses_eq_framed, sweep, cancelBase_add, List.flatMap_def, List.map_map,
    Function.comp_def]

/-- The number of frames of one FRM.TX, for a FIFO of `q` counters and `n` buses (R200). -/
def frameCount (cls : SlotClass) (fam : Family) (q n : Nat) : Nat :=
  match cls, fam with
  | .other, _ => n
  | .steer, _ => n
  | .long, .a => n
  | .long, .b => q * n
  | .cancel, .a => 2 * n
  | .cancel, .b => 16 * n

theorem txFrames_length (h : txError s slot = none) :
    (txFrames s slot).length =
      frameCount s.tbl[slot].cls s.fam s.fifo[slot].length (buses s.tbl[slot].txMask).length := by
  obtain ⟨-, -, -, hbuffered, -⟩ := txError_none h
  cases hcls : s.tbl[slot].cls with
  | other => rw [txFrames_of_other hcls, framed_length]; rfl
  | steer => rw [txFrames_of_steer hcls, framed_length]; rfl
  | long =>
    cases hfam : s.fam with
    | a =>
      have hq := List.dropLast_concat_getLast (hbuffered hcls hfam)
      rw [txFrames_of_long_a hcls hfam hq.symm, framed_length]
      rfl
    | b =>
      simp only [txFrames, hcls, hfam, flatMap_onBuses_length]
      rfl
  | cancel =>
    cases hfam : s.fam with
    | a =>
      rw [txFrames_of_cancel_a hcls hfam, List.length_append, framed_length, framed_length, ← Nat.two_mul]
      rfl
    | b =>
      simp only [txFrames, hcls, hfam, flatMap_onBuses_length, sweep, List.length_map, List.length_range]
      rfl

theorem frameCount_le (cls : SlotClass) (fam : Family) {q n : Nat} (hq : q ≤ 15) (hn : n ≤ 3) :
    frameCount cls fam q n ≤ 48 := by
  have hqn : q * n ≤ 15 * 3 := Nat.mul_le_mul hq hn
  unfold frameCount
  split <;> omega

end Frames

/-! ## Effects -/

/-- The steering counter, CYC[4:1], keeps the low bits of half of CYC (R151). -/
theorem steerCtr_eq_ofNat (c : BitVec 32) : steerCtr c = BitVec.ofNat 4 (c.toNat / 2) :=
  BitVec.eq_of_toNat_eq (steerCtr_toNat c)

section Effects

variable {s : State} {slot : Slot}

/-- The whole effect of FRM.TX where no check fails, with its response as a number (R186, R200). -/
theorem exec_frmTx_of_ok (h : txError s slot = none) :
    exec (.frmTx slot) s = .next { afterTx slot s with
      out := s.out ++ txFrames s slot
      resp := some (okWord
        (frameCount s.tbl[slot].cls s.fam s.fifo[slot].length (buses s.tbl[slot].txMask).length)) } := by
  change execFrmTx slot s = _
  rw [execFrmTx_of_ok h, okResponse_eq_okWord, BitVec.toNat_ofNat, okWord_mod, txFrames_length h]

theorem exec_frmTx_other (hready : TxReady s slot) (hcls : s.tbl[slot].cls = .other) :
    exec (.frmTx slot) s = .next { s with
      ctr := if s.tbl[slot].ctrEn then s.ctr.set slot (s.ctr[slot] + 1) else s.ctr
      out := s.out ++ framed s.tbl[slot] (build s slot s.ctr[slot] .none 0)
      resp := some (okWord (buses s.tbl[slot].txMask).length) } := by
  have hok : txError s slot = none :=
    txError_eq_none hready (.inl hcls) (by rw [hcls]; nofun) (by rw [hcls]; nofun) (by rw [hcls]; nofun)
  rw [exec_frmTx_of_ok hok, txFrames_of_other hcls, afterTx_eq]
  simp only [hcls, frameCount, reduceCtorEq, true_and, if_true, if_false]

theorem exec_frmTx_steer (hready : TxReady s slot) (hcls : s.tbl[slot].cls = .steer) (hphase : s.phase.toNat ≤ 1)
    (heven : s.cyc.toNat % 2 = 0) :
    exec (.frmTx slot) s = .next { s with
      phase := 1#2
      out := s.out ++ framed s.tbl[slot] (build s slot (BitVec.ofNat 4 (s.cyc.toNat / 2)) .none 0)
      resp := some (okWord (buses s.tbl[slot].txMask).length) } := by
  have hok : txError s slot = none :=
    txError_eq_none hready (.inr (by rwa [hcls])) (fun _ => heven) (by rw [hcls]; nofun) (by rw [hcls]; nofun)
  rw [exec_frmTx_of_ok hok, txFrames_of_steer hcls, steerCtr_eq_ofNat, afterTx_eq]
  simp only [hcls, frameCount, reduceCtorEq, false_and, if_false]
  rfl

/-- FRM.TX on a LONG slot takes its frames from the FIFO and empties it (R196, R197). -/
theorem exec_frmTx_long (hready : TxReady s slot) (hcls : s.tbl[slot].cls = .long) (hphase : s.phase.toNat ≤ 2)
    (hbuffered : s.fam = .a → s.fifo[slot] ≠ []) :
    exec (.frmTx slot) s = .next { s with
      phase := 2#2
      fifo := s.fifo.set slot []
      out := s.out ++ txFrames s slot
      resp := some (okWord (frameCount .long s.fam s.fifo[slot].length (buses s.tbl[slot].txMask).length)) } := by
  have hok : txError s slot = none :=
    txError_eq_none hready (.inr (by rwa [hcls])) (by rw [hcls]; nofun) (fun _ => hbuffered) (by rw [hcls]; nofun)
  rw [exec_frmTx_of_ok hok, afterTx_eq]
  simp only [hcls, reduceCtorEq, false_and, if_false, if_true]
  rfl

/-- FRM.TX on a CANCEL slot: its class has the highest rank, so no PHASE forbids it (R198, R199). -/
theorem exec_frmTx_cancel (hready : TxReady s slot) (hcls : s.tbl[slot].cls = .cancel)
    (hobserved : s.lastv[slot] = true) :
    exec (.frmTx slot) s = .next { s with
      phase := 3#2
      out := s.out ++ txFrames s slot
      resp := some (okWord (frameCount .cancel s.fam s.fifo[slot].length (buses s.tbl[slot].txMask).length)) } := by
  have horder : InClassOrder s slot := .inr (by rw [hcls]; exact Nat.le_of_lt_succ s.phase.isLt)
  have hok : txError s slot = none :=
    txError_eq_none hready horder (by rw [hcls]; nofun) (by rw [hcls]; nofun) (fun _ => hobserved)
  rw [exec_frmTx_of_ok hok, afterTx_eq]
  simp only [hcls, reduceCtorEq, false_and, if_false]
  rfl

end Effects

/-- Settles O38: the effect of each class, OTHER checked by nothing and STEER by PHASE and the cycle's parity. -/
theorem frmTxOtherAndSteer : Obligations.FrmTxOtherAndSteer :=
  fun _ _ hready => ⟨exec_frmTx_other hready, exec_frmTx_steer hready⟩

/-- Settles O39: the effect of class LONG, with the frames of each family. -/
theorem frmTxLong : Obligations.FrmTxLong := by
  intro s slot hready hcls hphase e
  constructor
  · intro q v hfam hq
    rw [exec_frmTx_long hready hcls hphase (by rw [hq]; simp),
      txFrames_of_long_a hcls hfam hq, hfam]
    rfl
  · intro hfam
    rw [exec_frmTx_long hready hcls hphase (by rw [hfam]; nofun), txFrames_of_long_b hcls hfam, hfam]
    rfl

/-- Settles O40: the effect of class CANCEL, with the frames of each family. -/
theorem frmTxCancel : Obligations.FrmTxCancel := by
  intro s slot hready hcls hobserved e c
  constructor
  · intro hfam
    rw [exec_frmTx_cancel hready hcls hobserved, txFrames_of_cancel_a hcls hfam, hfam]
    rfl
  · intro hfam
    rw [exec_frmTx_cancel hready hcls hobserved, txFrames_of_cancel_b hcls hfam, hfam]
    rfl

/-! ## The response -/

/-- A failing command answers E = 1, which no DATA alone sets (R83). -/
theorem failed_resp_ne {n d : Nat} (hn : n < 16) (hd : d < 0x10000) (s : State) :
    (failed n s).resp ≠ some (BitVec.ofNat 21 d) := by
  intro h
  have hnat := congrArg BitVec.toNat (Option.some.inj h)
  simp only [BitVec.toNat_ofNat] at hnat
  omega

theorem okWord_inj {m d : Nat} (hm : m < 0x10000) (hd : d < 0x10000) (h : okWord m = BitVec.ofNat 21 d) : m = d := by
  have hnat := congrArg BitVec.toNat h
  simp only [okWord, BitVec.toNat_ofNat] at hnat
  omega

/-- What a success response says of an FRM.TX: no check failed, its frames were appended, and DATA is their number in 16
bits (R200). -/
theorem frmTx_of_okResponse {s t : State} {slot : Slot} {d : Nat} (hexec : exec (.frmTx slot) s = .next t)
    (hd : d < 0x10000) (hresp : t.resp = some (BitVec.ofNat 21 d)) :
    txError s slot = none ∧ t.out = s.out ++ txFrames s slot ∧
      okWord (frameCount s.tbl[slot].cls s.fam s.fifo[slot].length (buses s.tbl[slot].txMask).length) =
        BitVec.ofNat 21 d := by
  cases herr : txError s slot with
  | some e =>
    rw [exec_frmTx_of_error herr] at hexec
    injection hexec with ht
    rw [← ht] at hresp
    exact absurd hresp (failed_resp_ne e.code.isLt hd s)
  | none =>
    rw [exec_frmTx_of_ok herr] at hexec
    injection hexec with ht
    rw [← ht] at hresp ⊢
    exact ⟨rfl, rfl, Option.some.inj hresp⟩

/-- A slot FRM.TX may emit has at least one bus, since the checks of LOCK ask for one (R248). -/
theorem buses_length_of_txReady {s : State} {slot : Slot} (hinv : s.Inv) (h : TxReady s slot) :
    1 ≤ (buses s.tbl[slot].txMask).length := by
  obtain ⟨-, ⟨hmask, -⟩, -⟩ := structureOk_of_txReady hinv h
  obtain ⟨-, -, hen⟩ := h
  exact buses_length_pos _ (hmask hen)

/-- Settles O41: the FIFO and the buses of a legal state keep the number of frames within DATA. -/
theorem frmTxCountsItsFrames : Obligations.FrmTxCountsItsFrames := by
  intro s t slot d hinv hexec hd hresp e n
  obtain ⟨hok, hout, hword⟩ := frmTx_of_okResponse hexec hd hresp
  obtain ⟨hready, -⟩ := txError_none hok
  obtain ⟨-, hdepth⟩ := hinv.params
  obtain ⟨hfifo, -⟩ := hinv.fifo slot
  have hn : n ≤ 3 := buses_length_le e.txMask
  have hle := frameCount_le e.cls s.fam (hfifo.trans hdepth) hn
  have hcount : frameCount e.cls s.fam s.fifo[slot].length n = d := okWord_inj (by omega) hd hword
  refine ⟨?_, buses_length_of_txReady hinv hready, hn, hcount.symm⟩
  rw [hout, List.length_append, txFrames_length hok, hcount]

end Sys2Proof
end

section
/-! PROOFS. The matching of a received frame under a locked table (43_frame_mux.md R203, 44_buffers_config.md R251).
Settles O48. -/

namespace Sys2Proof

open Machine

/-- Two masks that hold one bus have it in common. -/
theorem and_ne_zero_of_common {w : Nat} {a b : BitVec w} {i : Nat} (ha : a.getLsbD i = true) (hb : b.getLsbD i = true) :
    a &&& b ≠ 0 := by
  intro h
  have hbit := congrArg (·.getLsbD i) h
  simp [ha, hb] at hbit

/-- Two slots that match one frame would both receive its bus and id (R203, R251). -/
theorem collides_of_slotTakes {s : State} {f : RxFrame} {i j : Slot} (hi : SlotTakes s f i) (hj : SlotTakes s f j) :
    s.tbl[i].Collides s.tbl[j] := by
  obtain ⟨-, hrxi, hidi, -, hbusi⟩ := hi
  obtain ⟨-, hrxj, hidj, -, hbusj⟩ := hj
  exact ⟨hrxi, hrxj, hidi.trans hidj.symm, and_ne_zero_of_common hbusi hbusj⟩

/-- Settles O48: a locked table is valid, so no two of its valid entries collide. -/
theorem atMostOneSlotMatches : Obligations.AtMostOneSlotMatches := by
  intro s f i j hinv hlocked hi hj
  have hcollide := collides_of_slotTakes hi hj
  obtain ⟨hvi, -⟩ := hi
  obtain ⟨hvj, -⟩ := hj
  by_contra hij
  exact validTable_pair (hinv.lock hlocked) i j hij hvi hvj hcollide

end Sys2Proof
end

section
/-! PROOFS. What LOCK validates (44_buffers_config.md R247–R251): the checks of the model, entry by entry and pair by
pair, against the rules as they are written. Settles O15. -/

namespace Sys2Proof

open Machine

theorem entryOk_iff (fam : Family) (e : TblEntry) :
    e.entryOk fam = true ↔ e.StructureOk ∧ e.ClassOk ∧ e.VariantOk fam := by
  rw [TblEntry.entryOk, Bool.and_eq_true, Bool.and_eq_true, decide_eq_true_iff, decide_eq_true_iff, decide_eq_true_iff]
  exact and_assoc

/-- `valid_table()`, entry by entry and pair by pair (R247). -/
theorem validTable_iff (s : State) : validTable s = true ↔
    (∀ i : Slot, s.tbl[i].valid = true → s.tbl[i].StructureOk ∧ s.tbl[i].ClassOk ∧ s.tbl[i].VariantOk s.fam) ∧
    (∀ i j : Slot, i ≠ j → s.tbl[i].valid = true → s.tbl[j].valid = true → ¬ s.tbl[i].Collides s.tbl[j]) := by
  rw [validTable, Bool.and_eq_true, decide_eq_true_iff, decide_eq_true_iff]
  exact and_congr_left' (forall₂_congr fun i _ => entryOk_iff s.fam s.tbl[i])

/-- Two bit ranges have no bit in common when one ends below the other (R249). -/
theorem fieldsDisjoint_iff (e : TblEntry) : e.FieldsDisjoint ↔
    ∀ b : Nat, ¬ ((e.cmdLsb.toNat ≤ b ∧ b ≤ e.cmdLsb.toNat + e.cmdWm1.toNat) ∧
      (e.ctrLsb.toNat ≤ b ∧ b ≤ e.ctrLsb.toNat + 3)) := by
  constructor
  · rintro (hbelow | habove) b ⟨hcmd, hctr⟩ <;> omega
  · intro hno
    have hshared := hno (max e.cmdLsb.toNat e.ctrLsb.toNat)
    change _ ∨ _
    omega

/-- Settles O15: the rules list the checks of an entry in one row, and the shared bits of two fields bit by bit. -/
theorem validTableMeans : Obligations.ValidTableMeans := by
  intro s
  rw [validTable_iff]
  refine and_congr (forall₂_congr fun i _ => ?_) Iff.rfl
  constructor
  · rintro ⟨⟨hlen, ⟨htx, hrx⟩, hauth, htable, hctr⟩, ⟨hclass, hrecv, hcancel⟩, hvariant⟩
    refine ⟨hlen, htx, hrx, hauth, htable, hctr, hclass, hrecv, fun hc => ?_, hvariant⟩
    obtain ⟨hbyte, hval, hpos, hdisjoint⟩ := hcancel hc
    exact ⟨hbyte, hval, hpos, fun hsame => (fieldsDisjoint_iff _).1 (hdisjoint hsame)⟩
  · rintro ⟨hlen, htx, hrx, hauth, htable, hctr, hclass, hrecv, hcancel, hvariant⟩
    refine ⟨⟨hlen, ⟨htx, hrx⟩, hauth, htable, hctr⟩, ⟨hclass, hrecv, fun hc => ?_⟩, hvariant⟩
    obtain ⟨hbyte, hval, hpos, hdisjoint⟩ := hcancel hc
    exact ⟨hbyte, hval, hpos, fun hsame => (fieldsDisjoint_iff _).2 (hdisjoint hsame)⟩

end Sys2Proof
end

section
/-! PROOFS. The CFG family (44_buffers_config.md R234–R245): the legal values and the layout of every table field in the
numbers of the rules, and the words and the whole effect of the two commands. Settles O18 and O19. -/

namespace Sys2Proof

open Machine

/-! ## Fields of a word as numbers -/

/-- A single bit of a value (R33). -/
theorem getLsbD_eq_mod {w : Nat} (v : BitVec w) (i : Nat) : v.getLsbD i = (v.toNat / 2 ^ i % 2 == 1) := by
  rw [← BitVec.testBit_toNat, Nat.testBit_eq_decide_div_mod_eq]
  exact (beq_eq_decide ..).symm

/-- A range of bits of a value (R33). -/
theorem extractLsb'_eq_ofNat {w : Nat} (v : BitVec w) (lo n : Nat) :
    v.extractLsb' lo n = BitVec.ofNat n (v.toNat / 2 ^ lo % 2 ^ n) := by
  apply BitVec.eq_of_toNat_eq
  rw [BitVec.extractLsb'_toNat, BitVec.toNat_ofNat, Nat.mod_mod, Nat.shiftRight_eq_div_pow]

/-- A concatenation counts its low part in ones and its high part in multiples of the low part's range (R33). -/
theorem toNat_append_eq_add {m n : Nat} (hi : BitVec m) (lo : BitVec n) :
    (hi ++ lo).toNat = lo.toNat + 2 ^ n * hi.toNat := by
  rw [BitVec.toNat_append, ← Nat.shiftLeft_add_eq_or_of_lt lo.isLt, Nat.shiftLeft_eq, Nat.mul_comm, Nat.add_comm]

theorem toNat_mod_two_beq_one (n : Nat) : (n % 2 == 1).toNat = n % 2 := by
  obtain h | h := Nat.mod_two_eq_zero_or_one n <;> rw [h] <;> rfl

/-! ## Legal fields and values -/

theorem legalField_iff (field : BitVec 4) : legalField field = true ↔ field.toNat ≤ 9 := by
  simp [legalField, BitVec.le_def]

theorem legalField_eq_false_iff (field : BitVec 4) : legalField field = false ↔ 9 < field.toNat := by
  rw [← Bool.not_eq_true, legalField_iff, Nat.not_le]

/-- `legal(field, value)` of R235 in numbers. -/
abbrev LegalNumber (f v : Nat) : Prop :=
  (f = 0 ∧ v ≤ 7) ∨ (f = 1 ∧ v ≤ 0x7FF) ∨ (f = 2 ∧ 1 ≤ v ∧ v ≤ 8) ∨ (f = 3 ∧ v ≤ 7) ∨
  (f = 4 ∧ v ≤ 7) ∨ (f = 5 ∧ v ≤ 0xFF) ∨ (f = 6 ∧ v ≤ 0x7F ∧ v / 16 % 8 ≤ 4) ∨
  (f = 7 ∧ v ≤ 0x1FF ∧ v / 8 % 8 + v / 64 % 8 + 1 ≤ 8) ∨ (f = 8 ∧ v ≤ 0xFF) ∨ (f = 9 ∧ v ≤ 3)

/-- The range of each field, and the two fields with a sub-field of its own range (R235). -/
theorem legalValue_iff (field : BitVec 4) (value : BitVec 12) :
    legalValue field value = true ↔ LegalNumber field.toNat value.toNat := by
  unfold legalValue
  generalize field.toNat = f
  match f with
  | 0 | 1 | 2 | 3 | 4 | 5 | 8 | 9 => simp [LegalNumber, BitVec.le_def]
  | 6 | 7 => simp [LegalNumber, BitVec.le_def, BitVec.extractLsb'_toNat, Nat.shiftRight_eq_div_pow]
  | f + 10 => simp [LegalNumber]

theorem le_nine_of_legalNumber {f v : Nat} (h : LegalNumber f v) : f ≤ 9 := by
  omega

/-! ## The layout of a field -/

/-- KIND as its number (R33). -/
def kindNumber : AuthKind → Nat
  | .none => 0
  | .sum => 1
  | .crc => 2
  | .table => 3

/-- CLASS as its number (R33). -/
def classNumber : SlotClass → Nat
  | .other => 0
  | .steer => 1
  | .long => 2
  | .cancel => 3

/-- The number a field reads as, in the layout of R33. -/
def packedField (e : TblEntry) (f : Nat) : Nat :=
  match f with
  | 0 => e.valid.toNat + 2 * e.rxEn.toNat + 4 * e.txEn.toNat
  | 1 => e.id.toNat
  | 2 => e.len.toNat
  | 3 => e.rxMask.toNat
  | 4 => e.txMask.toNat
  | 5 => kindNumber e.kind + 4 * e.k.toNat + 32 * e.pos.toNat
  | 6 => e.ctrEn.toNat + 2 * e.ctrByte.toNat + 16 * e.ctrLsb.toNat
  | 7 => e.cmdByte.toNat + 8 * e.cmdLsb.toNat + 64 * e.cmdWm1.toNat
  | 8 => e.cmdv.toNat
  | 9 => classNumber e.cls
  | _ => 0

theorem kind_bits_toNat (k : AuthKind) : k.bits.toNat = kindNumber k := by
  cases k <;> rfl

theorem class_bits_toNat (c : SlotClass) : c.bits.toNat = classNumber c := by
  cases c <;> rfl

/-- Three sub-fields side by side, the layout of fields 0, 5, 6 and 7 (R33). -/
theorem packed_three_toNat {k m n : Nat} (hi : BitVec k) (mid : BitVec m) (lo : BitVec n) (hfit : k + m + n ≤ 16) :
    ((hi ++ mid ++ lo).setWidth 16).toNat = lo.toNat + 2 ^ n * mid.toNat + 2 ^ (m + n) * hi.toNat := by
  rw [BitVec.toNat_setWidth_of_le hfit, toNat_append_eq_add, toNat_append_eq_add, Nat.mul_add, ← Nat.mul_assoc,
    ← Nat.pow_add, ← Nat.add_assoc, Nat.add_comm n m]

/-- What CFG.RD answers, as a number (R236). -/
theorem pack_toNat (e : TblEntry) (field : BitVec 4) : (e.pack field).toNat = packedField e field.toNat := by
  unfold TblEntry.pack
  generalize field.toNat = f
  match f with
  | 0 =>
    refine (packed_three_toNat _ _ _ (by decide)).trans ?_
    simp only [BitVec.toNat_ofBool, packedField, Nat.reduceAdd, Nat.reducePow]
  | 1 | 2 | 3 | 4 | 8 => exact BitVec.toNat_setWidth_of_le (by decide)
  | 5 =>
    refine (packed_three_toNat _ _ _ (by decide)).trans ?_
    rw [kind_bits_toNat]
    rfl
  | 6 =>
    refine (packed_three_toNat _ _ _ (by decide)).trans ?_
    rw [BitVec.toNat_ofBool]
    rfl
  | 7 => exact packed_three_toNat _ _ _ (by decide)
  | 9 => exact (BitVec.toNat_setWidth_of_le (by decide)).trans (class_bits_toNat e.cls)
  | f + 10 => rfl

theorem authKind_ofBits_eq (b : BitVec 2) : AuthKind.ofBits b =
    if b.toNat = 0 then .none else if b.toNat = 1 then .sum else if b.toNat = 2 then .crc else .table := by
  revert b
  decide

theorem slotClass_ofBits_eq (b : BitVec 2) : SlotClass.ofBits b =
    if b.toNat = 0 then .other else if b.toNat = 1 then .steer else if b.toNat = 2 then .long else .cancel := by
  revert b
  decide

/-- The sub-fields a CFG.WR writes, in the numbers of R33. -/
theorem writeField_eq_writtenEntry (e : TblEntry) (field : BitVec 4) (value : BitVec 12) :
    e.writeField field value = writtenEntry e field.toNat value.toNat := by
  unfold TblEntry.writeField
  generalize field.toNat = f
  match f with
  | 0 => simp only [writtenEntry, getLsbD_eq_mod, Nat.reducePow, Nat.div_one]
  | 1 | 2 | 3 | 4 | 8 => rfl
  | 5 | 9 =>
    simp only [writtenEntry, authKind_ofBits_eq, slotClass_ofBits_eq, extractLsb'_eq_ofNat, BitVec.toNat_ofNat,
      Nat.mod_mod, Nat.reducePow, Nat.div_one]
  | 6 | 7 =>
    simp only [writtenEntry, getLsbD_eq_mod, extractLsb'_eq_ofNat, Nat.reducePow, Nat.div_one]
  | f + 10 => rfl

theorem kindNumber_of_mod (v : Nat) :
    kindNumber (if v % 4 = 0 then .none else if v % 4 = 1 then .sum else if v % 4 = 2 then .crc else .table) =
      v % 4 := by
  obtain h | h | h | h : v % 4 = 0 ∨ v % 4 = 1 ∨ v % 4 = 2 ∨ v % 4 = 3 := by omega
  all_goals
    rw [h]
    rfl

theorem classNumber_of_mod (v : Nat) :
    classNumber (if v % 4 = 0 then .other else if v % 4 = 1 then .steer else if v % 4 = 2 then .long else .cancel) =
      v % 4 := by
  obtain h | h | h | h : v % 4 = 0 ∨ v % 4 = 1 ∨ v % 4 = 2 ∨ v % 4 = 3 := by omega
  all_goals
    rw [h]
    rfl

/-- A field reads back the legal value written to it (R236). -/
theorem packedField_writtenEntry {f v : Nat} (e : TblEntry) (h : LegalNumber f v) :
    packedField (writtenEntry e f v) f = v := by
  match f, h with
  | 0, h =>
    simp only [packedField, writtenEntry, toNat_mod_two_beq_one]
    omega
  | 1, h | 2, h | 3, h | 4, h | 8, h => exact (BitVec.toNat_ofNat ..).trans (Nat.mod_eq_of_lt (by omega))
  | 5, h =>
    simp only [packedField, writtenEntry, kindNumber_of_mod, BitVec.toNat_ofNat]
    omega
  | 6, h | 7, h =>
    simp only [packedField, writtenEntry, toNat_mod_two_beq_one, BitVec.toNat_ofNat]
    omega
  | 9, h =>
    exact (classNumber_of_mod v).trans (Nat.mod_eq_of_lt (by omega))
  | f + 10, h => omega

/-- Every field of the table reads 0 after reset (R33, R320). -/
theorem packedField_zero (f : Nat) : packedField TblEntry.zero f = 0 := by
  unfold packedField
  split <;> rfl

/-! ## Effects -/

/-- CFG.WR of a field no entry has (R90). -/
theorem exec_cfgWr_of_illegalField {field : BitVec 4} (hfield : 9 < field.toNat) (slot : Slot) (value : BitVec 12)
    (s : State) : exec (.cfgWr slot field value) s = .next (failed 1 s) := by
  have hillegal : ¬ legalField field = true := ne_true_of_eq_false ((legalField_eq_false_iff field).2 hfield)
  exact (if_pos hillegal).trans (congrArg Host.Outcome.next (fail_eq_failed .illegal s))

/-- The lock is checked before the value (R234). -/
theorem exec_cfgWr_of_locked {field : BitVec 4} {s : State} (hfield : field.toNat ≤ 9) (hlocked : s.locked = true)
    (slot : Slot) (value : BitVec 12) : exec (.cfgWr slot field value) s = .next (failed 2 s) := by
  have hlegal : ¬ ¬ legalField field = true := not_not.2 ((legalField_iff field).2 hfield)
  exact (if_neg hlegal).trans ((if_pos hlocked).trans (congrArg Host.Outcome.next (fail_eq_failed .locked s)))

/-- CFG.WR of an unlocked table and a field of it, by the value (R234). -/
theorem exec_cfgWr_of_unlocked {field : BitVec 4} {s : State} (hfield : field.toNat ≤ 9) (hunlocked : s.locked = false)
    (slot : Slot) (value : BitVec 12) : exec (.cfgWr slot field value) s =
      if ¬ legalValue field value then .next (fail .badVal s)
      else .next (respond 0 { s with tbl := s.tbl.set slot (s.tbl[slot].writeField field value) }) := by
  have hlegal : ¬ ¬ legalField field = true := not_not.2 ((legalField_iff field).2 hfield)
  exact (if_neg hlegal).trans (if_neg (ne_true_of_eq_false hunlocked))

theorem exec_cfgWr_of_illegalValue {field : BitVec 4} {value : BitVec 12} {s : State} (hfield : field.toNat ≤ 9)
    (hunlocked : s.locked = false) (hvalue : ¬ LegalNumber field.toNat value.toNat) (slot : Slot) :
    exec (.cfgWr slot field value) s = .next (failed 4 s) := by
  rw [← legalValue_iff] at hvalue
  rw [exec_cfgWr_of_unlocked hfield hunlocked, if_pos hvalue]
  exact congrArg Host.Outcome.next (fail_eq_failed .badVal s)

theorem exec_cfgWr_of_legal {field : BitVec 4} {value : BitVec 12} {s : State} (hunlocked : s.locked = false)
    (hvalue : LegalNumber field.toNat value.toNat) (slot : Slot) :
    exec (.cfgWr slot field value) s = .next { s with
      tbl := s.tbl.set slot (writtenEntry s.tbl[slot] field.toNat value.toNat), resp := some (okWord 0) } := by
  have hlegal : ¬ ¬ legalValue field value = true := not_not.2 ((legalValue_iff field value).2 hvalue)
  rw [exec_cfgWr_of_unlocked (le_nine_of_legalNumber hvalue) hunlocked, if_neg hlegal, writeField_eq_writtenEntry]
  exact next_respond_eq rfl _

/-- CFG.RD of a field no entry has (R90). -/
theorem exec_cfgRd_of_illegalField {field : BitVec 4} (hfield : 9 < field.toNat) (slot : Slot) (s : State) :
    exec (.cfgRd slot field) s = .next (failed 1 s) := by
  have hillegal : ¬ legalField field = true := ne_true_of_eq_false ((legalField_eq_false_iff field).2 hfield)
  exact (if_pos hillegal).trans (congrArg Host.Outcome.next (fail_eq_failed .illegal s))

theorem exec_cfgRd_of_le {field : BitVec 4} (hfield : field.toNat ≤ 9) (slot : Slot) (s : State) :
    exec (.cfgRd slot field) s = .next { s with resp := some (okWord (packedField s.tbl[slot] field.toNat)) } := by
  have hlegal : ¬ ¬ legalField field = true := not_not.2 ((legalField_iff field).2 hfield)
  exact (if_neg hlegal).trans (next_respond_eq (pack_toNat _ _) s)

/-- CFG.RD right after a successful CFG.WR of the same field (R236). -/
theorem exec_cfgRd_after_cfgWr {field : BitVec 4} {value : BitVec 12} {s : State} (hunlocked : s.locked = false)
    (hvalue : legalValue field value = true) (slot : Slot) :
    ∃ t u, exec (.cfgWr slot field value) s = .next t ∧ exec (.cfgRd slot field) t = .next u ∧
      u = { t with resp := some (okWord value.toNat) } := by
  rw [legalValue_iff] at hvalue
  refine ⟨_, _, exec_cfgWr_of_legal hunlocked hvalue slot, exec_cfgRd_of_le (le_nine_of_legalNumber hvalue) slot _, ?_⟩
  simp only [set_slot, if_true, packedField_writtenEntry _ hvalue]

theorem exec_cfgRd_reset {field : BitVec 4} (hfield : field.toNat ≤ 9) (slot : Slot) :
    exec (.cfgRd slot field) State.reset = .next { State.reset with resp := some (okWord 0) } := by
  have hzero : State.reset.tbl[slot] = TblEntry.zero := Vector.getElem_replicate slot.isLt
  rw [exec_cfgRd_of_le hfield, hzero, packedField_zero]

/-! ## Words -/

theorem wordsRun_cfgWr :
    WordsRun 0x60 0x00F80000 (fun w => .cfgWr (wSlot w) (w.extractLsb' 12 4) (w.extractLsb' 0 12)) :=
  wordsRun_of_row cfgRows[0] _ _ _ rfl (by decide) (fun _ => rfl) fun _ hill s =>
    exec_cfgWr_of_illegalField ((legalField_eq_false_iff _).1 hill) _ _ s

theorem wordsRun_cfgRd : WordsRun 0x61 0x00F80FFF (fun w => .cfgRd (wSlot w) (w.extractLsb' 12 4)) :=
  wordsRun_of_row cfgRows[1] _ _ _ rfl (by decide) (fun _ => rfl) fun _ hill s =>
    exec_cfgRd_of_illegalField ((legalField_eq_false_iff _).1 hill) _ s

/-! ## The obligations -/

/-- Settles O18: the words by their row of R96, the failures in their order, and the written entry in the numbers of
R33. -/
theorem cfgWriteCommand : Obligations.CfgWriteCommand := by
  refine ⟨wordsRun_cfgWr, fun slot field value s => ?_⟩
  exact ⟨fun hfield => exec_cfgWr_of_illegalField hfield slot value s,
    fun hfield hlocked => exec_cfgWr_of_locked hfield hlocked slot value,
    fun hfield hunlocked hvalue => exec_cfgWr_of_illegalValue hfield hunlocked hvalue slot,
    fun hunlocked hvalue => exec_cfgWr_of_legal hunlocked hvalue slot⟩

/-- Settles O19: the words by their row of R96, each field by its packed number, and the read-back by what a legal
value's sub-fields pack to. -/
theorem cfgReadCommand : Obligations.CfgReadCommand := by
  refine ⟨wordsRun_cfgRd, fun slot field s hfield => exec_cfgRd_of_illegalField hfield slot s, fun slot s => ?_⟩
  have hreads (field : BitVec 4) (hfield : field.toNat ≤ 9) := exec_cfgRd_of_le hfield slot s
  exact ⟨hreads 0 (by decide), hreads 1 (by decide), hreads 2 (by decide), hreads 3 (by decide), hreads 4 (by decide),
    hreads 5 (by decide), hreads 6 (by decide), hreads 7 (by decide), hreads 8 (by decide), hreads 9 (by decide),
    fun field value hunlocked hvalue => exec_cfgRd_after_cfgWr hunlocked hvalue slot,
    fun field hfield => exec_cfgRd_reset hfield slot⟩

end Sys2Proof
end

section
/-! PROOFS. The BUF family (44_buffers_config.md R230–R233): the words and the whole effect of its four commands, and
every byte of TXBUF after each. Settles O32. -/

namespace Sys2Proof

open Machine

/-! ## Bytes of the buffers -/

/-- A byte of the templates after one template is written whole (R232, R233). -/
theorem loadTx_byte (slot i : Slot) (d : Vector Byte 8) (j : ByteIndex) (s : State) :
    (loadTx slot d s).txbuf[i][j] = if i = slot then d[j] else s.txbuf[i][j] := by
  rw [loadTx_txbuf, set_slot]
  split <;> rfl

/-- After reset a received payload and a template are both all zeros, so copying one over the other changes nothing. -/
theorem loadTx_reset (slot : Slot) : loadTx slot State.reset.rxbuf[slot] State.reset = State.reset := by
  have hzero : State.reset.rxbuf[slot] = Vector.replicate 8 0x00#8 := Vector.getElem_replicate slot.isLt
  have hset : State.reset.txbuf.set slot (Vector.replicate 8 0x00#8) = State.reset.txbuf := Vector.set_replicate_self
  rw [hzero, loadTx, hset]

/-! ## Effects -/

theorem exec_bufRd (slot : Slot) (src : BufSrc) (idx : ByteIndex) (s : State) :
    exec (.bufRd slot src idx) s = .next { s with resp := some (okWord (s.buffer src slot)[idx].toNat) } :=
  next_respond_eq (BitVec.toNat_setWidth_of_le (by decide)) s

/-- A legal state holds 0 in RXBUF at and above the slot's length (R231). -/
theorem exec_bufRd_of_tail {slot : Slot} {idx : ByteIndex} {s : State} (hinv : s.Inv)
    (htail : s.tbl[slot].len.toNat ≤ idx.val) :
    exec (.bufRd slot .rx idx) s = .next { s with resp := some (okWord 0) } := by
  have hzero : (s.buffer .rx slot)[idx] = 0x00#8 := hinv.rxTail slot idx htail
  rw [exec_bufRd, hzero]
  rfl

theorem exec_bufWr (slot : Slot) (idx : ByteIndex) (b : Byte) (s : State) :
    exec (.bufWr slot idx b) s = .next { writeTx slot idx b s with resp := some (okWord 0) } :=
  next_respond_eq rfl (writeTx slot idx b s)

theorem exec_bufSnap (slot : Slot) (s : State) :
    exec (.bufSnap slot) s = .next { loadTx slot s.rxbuf[slot] s with resp := some (okWord 0) } :=
  next_respond_eq rfl (loadTx slot s.rxbuf[slot] s)

theorem exec_bufSnap_reset (slot : Slot) :
    exec (.bufSnap slot) State.reset = .next { State.reset with resp := some (okWord 0) } := by
  rw [exec_bufSnap, loadTx_reset]

theorem exec_bufClr (slot : Slot) (s : State) :
    exec (.bufClr slot) s = .next { loadTx slot (Vector.replicate 8 0x00) s with resp := some (okWord 0) } :=
  next_respond_eq rfl (loadTx slot (Vector.replicate 8 0x00) s)

/-! ## The templates after a command -/

/-- After BUF.SNAP, the slot's template is its received payload (R232). -/
theorem snapped_byte (slot i : Slot) (j : ByteIndex) (s : State) :
    (loadTx slot s.rxbuf[slot] s).txbuf[i][j] = if i = slot then s.rxbuf[i][j] else s.txbuf[i][j] := by
  rw [loadTx_byte]
  split
  case isTrue hi => rw [hi]
  case isFalse => rfl

/-- After BUF.CLR, the slot's template is all zeros (R233). -/
theorem cleared_byte (slot i : Slot) (j : ByteIndex) (s : State) :
    (loadTx slot (Vector.replicate 8 0x00) s).txbuf[i][j] = if i = slot then 0x00#8 else s.txbuf[i][j] := by
  have hzero : (Vector.replicate 8 (0x00 : Byte))[j] = 0x00#8 := Vector.getElem_replicate j.isLt
  rw [loadTx_byte, hzero]

/-! ## Words -/

theorem wordsRun_bufWr : WordsRun 0x40 0x00F8F800 (fun w => .bufWr (wSlot w) (wIdx w) (w.extractLsb' 0 8)) :=
  wordsRun_of_row bufRows[0] _ _ _ rfl (by decide) (fun _ => rfl) nofun

theorem wordsRun_bufRd : WordsRun 0x41 0x00F8E8FF (fun w => .bufRd (wSlot w) (wSrc w) (wIdx w)) :=
  wordsRun_of_row bufRows[1] _ _ _ rfl (by decide)
    (fun w => congrArg (Instr.bufRd (wSlot w) · (wIdx w)) (srcOf_eq_wSrc w)) nofun

theorem wordsRun_bufSnap : WordsRun 0x42 0x00F8FFFF (fun w => .bufSnap (wSlot w)) :=
  wordsRun_of_row bufRows[2] _ _ _ rfl (by decide) (fun _ => rfl) nofun

theorem wordsRun_bufClr : WordsRun 0x43 0x00F8FFFF (fun w => .bufClr (wSlot w)) :=
  wordsRun_of_row bufRows[3] _ _ _ rfl (by decide) (fun _ => rfl) nofun

/-- Settles O32: the words by their rows of R96, the effects command by command, the tail of RXBUF by the invariant,
and each byte of TXBUF by what one write to it leaves. -/
theorem bufferCommands : Obligations.BufferCommands := by
  refine ⟨wordsRun_bufWr, wordsRun_bufRd, wordsRun_bufSnap, wordsRun_bufClr, fun s slot idx b => ?_⟩
  exact ⟨exec_bufRd slot .tx idx s, exec_bufRd slot .rx idx s, exec_bufRd_of_tail,
    ⟨_, exec_bufWr slot idx b s, rfl, fun i j => writeTx_byte slot i idx j b s⟩,
    ⟨_, exec_bufSnap slot s, rfl, fun i j => snapped_byte slot i j s⟩,
    exec_bufSnap_reset slot,
    ⟨_, exec_bufClr slot s, rfl, fun i j => cleared_byte slot i j s⟩⟩

end Sys2Proof
end

section
/-! PROOFS. A step other than reset (30_encoding.md R80, 43_frame_mux.md R202, 70_reset_and_hazards.md R321): it is the
effect of a command, a failure of a word that is none, or one reception; so no such step unlocks or lowers the
dropped-frame count. -/

namespace Sys2Proof

open Machine

/-- What the step of an arrival that is not reset can do. -/
theorem step_cases_of_ne_reset {s t : State} {x : Input} {rest : List Input} (hs : s.inputs = x :: rest)
    (hx : x ≠ .reset) (h : step s = .next t) :
    (∃ i, Effect i { s with inputs := rest } t) ∨ t = fail .illegal { s with inputs := rest } ∨
      ∃ f, t = receiveFrame f { s with inputs := rest } := by
  cases x with
  | command w =>
    obtain ⟨i, -, heffect⟩ | ⟨-, hfail⟩ := step_command hs h
    · exact .inl ⟨i, heffect⟩
    · exact .inr (.inl hfail)
  | receive f =>
    simp only [step, takeInput, hs, applyInput] at h
    injection h with h
    exact .inr (.inr ⟨f, h.symm⟩)
  | reset => exact absurd rfl hx

/-! ## Commands -/

/-- No command but LOCK changes LOCKED, and LOCK only sets it (R28, R272). -/
theorem effect_keeps_locked {i : Instr} {s t : State} (h : Effect i s t) (hlocked : s.locked = true) :
    t.locked = true := by
  cases h with
  | lock => rfl
  | frmTx => simpa [afterTx_eq] using hlocked
  | _ => exact hlocked

/-- No command writes RX_DROP (R32). -/
theorem effect_rxDrop {i : Instr} {s t : State} (h : Effect i s t) : t.rxDrop = s.rxDrop := by
  cases h with
  | frmTx => simp [afterTx_eq]
  | _ => rfl

/-! ## Receptions -/

/-- No reception writes LOCKED (R211). -/
theorem demux_locked (f : RxFrame) (s : State) : (demux f s).locked = s.locked := by
  obtain h | ⟨-, h⟩ | ⟨i, -, -, -, h⟩ := demux_cases f s <;> rw [h]
  · exact dropFrame_locked s
  · exact raise_locked s .rxLen
  · rw [captureCtr_storeFrame_eq]

/-- The dropped-frame count saturates and does not wrap (R32). -/
theorem le_dropCount (n : BitVec 8) : n.toNat ≤ (dropCount n).toNat := by
  have := n.isLt
  rw [dropCount_eq, BitVec.toNat_ofNat]
  omega

/-- A reception counts a dropped frame or leaves the count alone (R204, R205, R211). -/
theorem rxDrop_le_demux (f : RxFrame) (s : State) : s.rxDrop.toNat ≤ (demux f s).rxDrop.toNat := by
  obtain h | ⟨-, h⟩ | ⟨i, -, -, -, h⟩ := demux_cases f s <;> rw [h]
  · exact le_dropCount s.rxDrop
  · rw [raise_rxDrop]
  · rw [captureCtr_storeFrame_eq]

/-! ## Steps -/

/-- Only reset unlocks (R28, R321). -/
theorem step_keeps_locked {s t : State} {x : Input} {rest : List Input} (hlocked : s.locked = true)
    (hs : s.inputs = x :: rest) (hx : x ≠ .reset) (h : step s = .next t) : t.locked = true := by
  obtain ⟨i, heffect⟩ | rfl | ⟨f, rfl⟩ := step_cases_of_ne_reset hs hx h
  · exact effect_keeps_locked heffect hlocked
  · exact hlocked
  · exact (demux_locked f _).trans hlocked

/-- Only reset lowers RX_DROP (R32, R281). -/
theorem rxDrop_le_step {s t : State} {x : Input} {rest : List Input} (hs : s.inputs = x :: rest) (hx : x ≠ .reset)
    (h : step s = .next t) : s.rxDrop.toNat ≤ t.rxDrop.toNat := by
  obtain ⟨i, heffect⟩ | rfl | ⟨f, rfl⟩ := step_cases_of_ne_reset hs hx h
  · rw [effect_rxDrop heffect]
  · rw [fail_rxDrop]
  · exact rxDrop_le_demux f { s with inputs := rest }

end Sys2Proof
end

section
/-! PROOFS. The SYS family (45_system.md R270–R281): the words and the whole effect of its twelve commands, and the bits
STATUS can hold. Settles O10, O11, O12, O13 and O14. -/

namespace Sys2Proof

open Machine

/-! ## What the reads answer, as numbers -/

theorem famBit_toNat (fam : Family) : fam.bit.toNat = if fam = .b then 1 else 0 := by
  cases fam <;> rfl

/-- `LOCKED << 8 | SUB << 1 | FAM` as a number (R274). -/
theorem variant_toNat (locked sub : Bool) (fam : Family) :
    ((BitVec.ofBool locked ++ 0#6 ++ BitVec.ofBool sub ++ fam.bit).setWidth 16).toNat =
      256 * locked.toNat + 2 * sub.toNat + if fam = .b then 1 else 0 := by
  rw [BitVec.toNat_setWidth_of_le (by decide), toNat_append_eq_add, toNat_append_eq_add, toNat_append_eq_add,
    BitVec.toNat_ofBool, BitVec.toNat_ofBool, famBit_toNat, BitVec.toNat_ofNat]
  omega

/-- `CYC[15:0]` as a number (R278). -/
theorem cycLow_toNat (c : BitVec 32) : (c.extractLsb' 0 16).toNat = c.toNat % 0x10000 := by
  rw [BitVec.extractLsb'_toNat, Nat.shiftRight_zero]

/-- `CYC[31:16]` as a number (R279). -/
theorem cycHigh_toNat (c : BitVec 32) : (c.extractLsb' 16 16).toNat = c.toNat / 0x10000 := by
  have := c.isLt
  rw [BitVec.extractLsb'_toNat, Nat.shiftRight_eq_div_pow]
  omega

/-! ## The bits of STATUS -/

/-- A bit of STATUS that is hardwired to 0 reads 0 (R29). -/
theorem status_bit_of_hardwired {s : State} (hstatus : s.StatusLegal) {i : Nat} (hi : (0xE001#16).getLsbD i = true) :
    s.status.getLsbD i = false :=
  Bool.eq_false_iff.2 fun hbit => and_ne_zero_of_common hbit hi hstatus

/-- No bit of STATUS from 13 on is ever set (R29, R275). -/
theorem status_lt_of_legal {s : State} (hstatus : s.StatusLegal) : s.status.toNat < 0x2000 := by
  refine Nat.lt_pow_two_of_testBit (n := 13) _ fun i hi => ?_
  rw [BitVec.testBit_toNat]
  obtain rfl | rfl | rfl | hi : i = 13 ∨ i = 14 ∨ i = 15 ∨ 16 ≤ i := by omega
  · exact status_bit_of_hardwired hstatus (by decide)
  · exact status_bit_of_hardwired hstatus (by decide)
  · exact status_bit_of_hardwired hstatus (by decide)
  · exact BitVec.getLsbD_of_ge s.status i hi

/-! ## Effects -/

theorem exec_nop (s : State) : exec .nop s = .next { s with resp := some (okWord 0) } :=
  next_respond_eq rfl s

theorem exec_tick (s : State) :
    exec .tick s = .next { s with
      cyc := BitVec.ofNat 32 ((s.cyc.toNat + 1) % 2 ^ 32), phase := 0#2, resp := some (okWord 0) } := by
  rw [← succ_eq_ofNat_mod]
  exact next_respond_eq rfl { s with cyc := s.cyc + 1, phase := 0 }

theorem exec_rdvar (s : State) :
    exec .rdvar s = .next { s with
      resp := some (okWord (256 * s.locked.toNat + 2 * s.sub.toNat + if s.fam = .b then 1 else 0)) } :=
  next_respond_eq (variant_toNat s.locked s.sub s.fam) s

theorem exec_rdstat (s : State) : exec .rdstat s = .next { s with resp := some (okWord s.status.toNat) } :=
  next_respond_eq rfl s

theorem exec_rderr (s : State) : exec .rderr s = .next { s with resp := some (okWord s.err.toNat) } :=
  next_respond_eq (BitVec.toNat_setWidth_of_le (by decide)) s

theorem exec_rdcycl (s : State) :
    exec .rdcycl s = .next { s with resp := some (okWord (s.cyc.toNat % 0x10000)) } :=
  next_respond_eq (cycLow_toNat s.cyc) s

theorem exec_rdcych (s : State) :
    exec .rdcych s = .next { s with resp := some (okWord (s.cyc.toNat / 0x10000)) } :=
  next_respond_eq (cycHigh_toNat s.cyc) s

theorem exec_rddrop (s : State) : exec .rddrop s = .next { s with resp := some (okWord s.rxDrop.toNat) } :=
  next_respond_eq (BitVec.toNat_setWidth_of_le (by decide)) s

theorem exec_clrstat (m : BitVec 16) (s : State) :
    exec (.clrstat m) s = .next { s with status := s.status &&& ~~~m, err := 0#4, resp := some (okWord 0) } :=
  next_respond_eq rfl { s with status := s.status &&& ~~~m, err := 0 }

theorem exec_setirq (m : BitVec 16) (s : State) :
    exec (.setirq m) s = .next { s with irqEn := m, resp := some (okWord 0) } :=
  next_respond_eq rfl { s with irqEn := m }

/-- What RDERR answers in the state CLRSTAT leaves (R276, R277). -/
theorem exec_rderr_after_clrstat {m : BitVec 16} {s t : State} (h : exec (.clrstat m) s = .next t) :
    exec .rderr t = .next { t with resp := some (okWord 0) } := by
  rw [exec_clrstat] at h
  injection h with h
  subst h
  exact exec_rderr _

/-! ## SETVAR -/

section Setvar

variable {v : BitVec 8} {s : State}

/-- The lock is checked before the value (R273). -/
theorem exec_setvar_of_locked (hlocked : s.locked = true) : exec (.setvar v) s = .next (failed 2 s) :=
  (if_pos hlocked).trans (congrArg Host.Outcome.next (fail_eq_failed .locked s))

theorem exec_setvar_of_illegal (hunlocked : s.locked = false) (h0 : v.toNat ≠ 0) (h1 : v.toNat ≠ 1)
    (h3 : v.toNat ≠ 3) : exec (.setvar v) s = .next (failed 4 s) := by
  have hillegal := (setvar_illegal_iff v).2 ⟨h0, h1, h3⟩
  exact (if_neg (ne_true_of_eq_false hunlocked)).trans
    ((if_pos hillegal).trans (congrArg Host.Outcome.next (fail_eq_failed .badVal s)))

/-- A legal value holds FAM in its bit 0 and SUB in its bit 1 (R273). -/
theorem exec_setvar_of_legal (hunlocked : s.locked = false) (hv : v.toNat = 0 ∨ v.toNat = 1 ∨ v.toNat = 3) :
    exec (.setvar v) s = .next { s with
      fam := if v.getLsbD 0 then .b else .a, sub := v.getLsbD 1, resp := some (okWord 0) } := by
  have hlegal : ¬ (v.extractLsb' 2 6 ≠ 0 ∨ v = 0x02#8) := by
    rw [setvar_illegal_iff]
    omega
  exact (if_neg (ne_true_of_eq_false hunlocked)).trans ((if_neg hlegal).trans (next_respond_eq rfl _))

theorem exec_setvar_zero (hunlocked : s.locked = false) (hv : v.toNat = 0) :
    exec (.setvar v) s = .next { s with fam := .a, sub := false, resp := some (okWord 0) } := by
  obtain rfl : v = 0#8 := BitVec.eq_of_toNat_eq hv
  exact exec_setvar_of_legal hunlocked (.inl rfl)

theorem exec_setvar_one (hunlocked : s.locked = false) (hv : v.toNat = 1) :
    exec (.setvar v) s = .next { s with fam := .b, sub := false, resp := some (okWord 0) } := by
  obtain rfl : v = 1#8 := BitVec.eq_of_toNat_eq hv
  exact exec_setvar_of_legal hunlocked (.inr (.inl rfl))

theorem exec_setvar_three (hunlocked : s.locked = false) (hv : v.toNat = 3) :
    exec (.setvar v) s = .next { s with fam := .b, sub := true, resp := some (okWord 0) } := by
  obtain rfl : v = 3#8 := BitVec.eq_of_toNat_eq hv
  exact exec_setvar_of_legal hunlocked (.inr (.inr rfl))

end Setvar

/-! ## LOCK -/

section Lock

variable {s : State}

/-- The lock is checked before the table (R272). -/
theorem exec_lock_of_locked (hlocked : s.locked = true) : exec .lock s = .next (failed 2 s) :=
  (if_pos hlocked).trans (congrArg Host.Outcome.next (fail_eq_failed .locked s))

theorem exec_lock_of_invalid (hunlocked : s.locked = false) (hinvalid : validTable s = false) :
    exec .lock s = .next (failed 5 s) :=
  (if_neg (ne_true_of_eq_false hunlocked)).trans
    ((if_pos hinvalid).trans (congrArg Host.Outcome.next (fail_eq_failed .cfg s)))

theorem exec_lock_of_valid (hunlocked : s.locked = false) (hvalid : validTable s = true) :
    exec .lock s = .next { s with locked := true, resp := some (okWord 0) } :=
  (if_neg (ne_true_of_eq_false hunlocked)).trans
    ((if_neg (ne_false_of_eq_true hvalid)).trans (next_respond_eq rfl { s with locked := true }))

/-- The checks of R247 are of valid entries alone. -/
theorem validTable_of_no_entry (hnone : ∀ i : Slot, s.tbl[i].valid = false) : validTable s = true := by
  have hno (i : Slot) : ¬ s.tbl[i].valid = true := ne_true_of_eq_false (hnone i)
  exact (validTable_iff s).2 ⟨fun i hi => absurd hi (hno i), fun i _ _ hi => absurd hi (hno i)⟩

end Lock

/-! ## Words -/

theorem wordsRun_nop : WordsRun 0x00 0x00FFFFFF (fun _ => .nop) :=
  wordsRun_of_row sysRows[0] _ _ _ rfl (by decide) (fun _ => rfl) nofun

theorem wordsRun_tick : WordsRun 0x01 0x00FFFFFF (fun _ => .tick) :=
  wordsRun_of_row sysRows[1] _ _ _ rfl (by decide) (fun _ => rfl) nofun

theorem wordsRun_lock : WordsRun 0x02 0x00FFFFFF (fun _ => .lock) :=
  wordsRun_of_row sysRows[2] _ _ _ rfl (by decide) (fun _ => rfl) nofun

theorem wordsRun_setvar : WordsRun 0x03 0x00FFFF00 (fun w => .setvar (w.extractLsb' 0 8)) :=
  wordsRun_of_row sysRows[3] _ _ _ rfl (by decide) (fun _ => rfl) nofun

theorem wordsRun_rdvar : WordsRun 0x04 0x00FFFFFF (fun _ => .rdvar) :=
  wordsRun_of_row sysRows[4] _ _ _ rfl (by decide) (fun _ => rfl) nofun

theorem wordsRun_rdstat : WordsRun 0x05 0x00FFFFFF (fun _ => .rdstat) :=
  wordsRun_of_row sysRows[5] _ _ _ rfl (by decide) (fun _ => rfl) nofun

theorem wordsRun_clrstat : WordsRun 0x06 0x00FF0000 (fun w => .clrstat (w.extractLsb' 0 16)) :=
  wordsRun_of_row sysRows[6] _ _ _ rfl (by decide) (fun _ => rfl) nofun

theorem wordsRun_rderr : WordsRun 0x07 0x00FFFFFF (fun _ => .rderr) :=
  wordsRun_of_row sysRows[7] _ _ _ rfl (by decide) (fun _ => rfl) nofun

theorem wordsRun_rdcycl : WordsRun 0x08 0x00FFFFFF (fun _ => .rdcycl) :=
  wordsRun_of_row sysRows[8] _ _ _ rfl (by decide) (fun _ => rfl) nofun

theorem wordsRun_rdcych : WordsRun 0x09 0x00FFFFFF (fun _ => .rdcych) :=
  wordsRun_of_row sysRows[9] _ _ _ rfl (by decide) (fun _ => rfl) nofun

theorem wordsRun_setirq : WordsRun 0x0A 0x00FF0000 (fun w => .setirq (w.extractLsb' 0 16)) :=
  wordsRun_of_row sysRows[10] _ _ _ rfl (by decide) (fun _ => rfl) nofun

theorem wordsRun_rddrop : WordsRun 0x0B 0x00FFFFFF (fun _ => .rddrop) :=
  wordsRun_of_row sysRows[11] _ _ _ rfl (by decide) (fun _ => rfl) nofun

/-! ## The obligations -/

/-- Settles O11: the words by their rows of R96, and TICK's count modulo 2^32. -/
theorem nopAndTick : Obligations.NopAndTick :=
  ⟨wordsRun_nop, wordsRun_tick, fun s => ⟨exec_nop s, exec_tick s⟩⟩

/-- Settles O12: the words by their rows of R96, the effects command by command. -/
theorem statusAndInterruptCommands : Obligations.StatusAndInterruptCommands :=
  ⟨wordsRun_clrstat, wordsRun_setirq, fun m s => ⟨exec_clrstat m s, exec_setirq m s⟩⟩

/-- Settles O13: the words by their row of R96, the failures in their order, and each legal value by its two bits. -/
theorem setvarCommand : Obligations.SetvarCommand :=
  ⟨wordsRun_setvar, fun _ _ => ⟨exec_setvar_of_locked, exec_setvar_of_illegal, exec_setvar_zero, exec_setvar_one,
    exec_setvar_three⟩⟩

/-- Settles O14: the words by their row of R96, the failures in their order, the empty table by what is checked of a
valid entry alone, and the lock by what a step other than reset can do. -/
theorem lockCommand : Obligations.LockCommand :=
  ⟨wordsRun_lock, fun _ => ⟨exec_lock_of_locked, exec_lock_of_invalid, exec_lock_of_valid, validTable_of_no_entry,
    fun _ _ _ => step_keeps_locked⟩⟩

/-- Settles O10: the words by their rows of R96, the answers as numbers, STATUS by its hardwired bits, and RX_DROP by
what a step other than reset can do. -/
theorem sysReadCommands : Obligations.SysReadCommands := by
  refine ⟨wordsRun_rdvar, wordsRun_rdstat, wordsRun_rderr, wordsRun_rdcycl, wordsRun_rdcych, wordsRun_rddrop,
    fun s => ?_⟩
  exact ⟨exec_rdvar s, exec_rdstat s, exec_rderr s, exec_rdcycl s, exec_rdcych s, exec_rddrop s,
    fun hinv => ⟨status_bit_of_hardwired hinv.status (by decide), status_lt_of_legal hinv.status⟩,
    exec_rdvar State.reset, exec_rderr State.reset,
    fun _ _ h => exec_rderr_after_clrstat h, fun _ _ _ => rxDrop_le_step⟩

end Sys2Proof
end

section
/-! PROOFS. The end of a command step (60_exceptions.md R291, 30_encoding.md R83): every command word's step answers a
state, and that state is the failure's exact effect or carries a success response with ERR left to CLRSTAT. -/

namespace Sys2Proof

open Machine

/-! ## A next state -/

/-- No command halts the block: each of its checks that fails reports instead (R291, R294). -/
theorem exec_answers (i : Instr) (s : State) : ∃ t, exec i s = .next t := by
  cases i with
  | lock =>
    rw [exec, execLock]
    split
    · exact ⟨_, rfl⟩
    split <;> exact ⟨_, rfl⟩
  | setvar v =>
    rw [exec, execSetvar]
    split
    · exact ⟨_, rfl⟩
    split <;> exact ⟨_, rfl⟩
  | crcBuf slot src k =>
    rw [exec, execCrcBuf]
    split <;> exact ⟨_, rfl⟩
  | sumBuf slot src k =>
    rw [exec, execSumBuf]
    split
    · exact ⟨_, rfl⟩
    split <;> exact ⟨_, rfl⟩
  | cntPop slot =>
    rw [exec, execCntPop]
    split <;> exact ⟨_, rfl⟩
  | frmTx slot =>
    rw [exec, execFrmTx]
    split <;> exact ⟨_, rfl⟩
  | cfgWr slot field value =>
    rw [exec, execCfgWr]
    split
    · exact ⟨_, rfl⟩
    split
    · exact ⟨_, rfl⟩
    split <;> exact ⟨_, rfl⟩
  | cfgRd slot field =>
    rw [exec, execCfgRd]
    split <;> exact ⟨_, rfl⟩
  | _ => exact ⟨_, rfl⟩

/-- A command word's step answers a state, whether the word decodes or not (R91, R92). -/
theorem step_command_answers {s : State} {w : Word} {rest : List Input} (hs : s.inputs = .command w :: rest) :
    ∃ t, step s = .next t := by
  simp only [step, takeInput, hs, applyInput, runCommand]
  cases decode w with
  | ok i => exact exec_answers i _
  | error e => exact ⟨_, rfl⟩

/-! ## Success or failure -/

/-- A command that succeeds answers E = 0 and CODE = 0, and only CLRSTAT then writes ERR; any other command has the
effect of a failure alone (R30, R83, R291). -/
theorem effect_fails_or_succeeds {i : Instr} {s t : State} (h : Effect i s t) :
    (∃ e, t = fail e s) ∨ (∃ d, t.resp = some (okResponse d)) ∧ (t.err = s.err ∨ ∃ m, i = .clrstat m) := by
  cases h with
  | failed i s e => exact .inl ⟨e, rfl⟩
  | clrstat s m => exact .inr ⟨⟨_, rfl⟩, .inr ⟨m, rfl⟩⟩
  | frmTx s slot => exact .inr ⟨⟨_, rfl⟩, .inl (by simp [afterTx_eq])⟩
  | _ => exact .inr ⟨⟨_, rfl⟩, .inl rfl⟩

/-- What the step of a command word can end in. -/
theorem step_command_fails_or_succeeds {s t : State} {w : Word} {rest : List Input}
    (hs : s.inputs = .command w :: rest) (h : step s = .next t) :
    (∃ e, t = fail e { s with inputs := rest }) ∨
      (∃ d, t.resp = some (okResponse d)) ∧ (t.err = s.err ∨ ∃ m, decode w = .ok (.clrstat m)) := by
  obtain ⟨i, hi, heffect⟩ | ⟨-, hfail⟩ := step_command hs h
  · rw [hi]
    obtain hfails | ⟨hresp, herr | ⟨m, rfl⟩⟩ := effect_fails_or_succeeds heffect
    · exact .inl hfails
    · exact .inr ⟨hresp, .inl herr⟩
    · exact .inr ⟨hresp, .inr ⟨m, rfl⟩⟩
  · exact .inl ⟨.illegal, hfail⟩

/-- The codes a command can report (R290). -/
theorem errCode_mem_range (e : ErrCode) : 1 ≤ e.code.toNat ∧ e.code.toNat ≤ 9 := by
  cases e <;> decide

/-- A success response is its DATA alone (R83). -/
theorem okResponse_eq_ofNat (d : BitVec 16) : okResponse d = BitVec.ofNat 21 d.toNat := by
  rw [okResponse_eq_okWord, okWord, Nat.mod_eq_of_lt d.isLt]

/-- Settles O8: the step answers a state, which is by the effects of the commands a failure or a success. -/
theorem failingCommandOnlyReports : Obligations.FailingCommandOnlyReports := by
  intro w s rest hs
  obtain ⟨t, ht⟩ := step_command_answers hs
  refine ⟨t, ht, ?_⟩
  obtain ⟨e, rfl⟩ | ⟨⟨d, hresp⟩, herr⟩ := step_command_fails_or_succeeds hs ht
  · obtain ⟨hlow, hhigh⟩ := errCode_mem_range e
    refine .inr ⟨e.code.toNat, hlow, hhigh, ?_⟩
    rw [fail_eq_failed, failed, Nat.mul_comm]
  · exact .inl ⟨d.toNat, d.isLt, hresp.trans (congrArg some (okResponse_eq_ofNat d)), herr⟩

end Sys2Proof
end

section
/-! PROOFS. Encoding and decoding are inverse to each other (30_encoding.md R81–R92, R96): the fields of an encoded word
are the operands it was made from, and a word whose reserved bits are clear is made of its fields. Settles O1, O2 and
O5. -/

namespace Sys2Proof

open Machine

/-! ## The fields of an encoded word -/

@[simp] theorem imm8Of_encodeB (fam fn : BitVec 4) (imm8 : BitVec 8) : imm8Of (encodeB fam fn imm8) = imm8 :=
  extract_append_whole_low _ imm8

@[simp] theorem idOf_encodeI (fam fn : BitVec 4) (id : BitVec 11) : idOf (encodeI fam fn id) = id :=
  extract_append_whole_low _ id

@[simp] theorem mask16Of_encodeM (fam fn : BitVec 4) (mask16 : BitVec 16) : mask16Of (encodeM fam fn mask16) = mask16 :=
  extract_append_whole_low _ mask16

@[simp] theorem vOf_encodeSV (fam fn : BitVec 4) (slot : Slot) (v : BitVec 4) : vOf (encodeSV fam fn slot v) = v :=
  extract_append_whole_low _ v

@[simp] theorem kOf_encodeSK (fam fn : BitVec 4) (slot : Slot) (src : BufSrc) (k : BitVec 4) :
    kOf (encodeSK fam fn slot src k) = k :=
  extract_append_whole_low _ k

@[simp] theorem byteOf_encodeSIB (fam fn : BitVec 4) (slot : Slot) (idx : ByteIndex) (byte : BitVec 8) :
    byteOf (encodeSIB fam fn slot idx byte) = byte :=
  extract_append_whole_low _ byte

@[simp] theorem valueOf_encodeCW (fam fn : BitVec 4) (slot : Slot) (field : BitVec 4) (value : BitVec 12) :
    valueOf (encodeCW fam fn slot field value) = value :=
  extract_append_whole_low _ value

/-- A field in the middle of a concatenation. -/
theorem extract_append_middle {u v w : Nat} (x : BitVec u) (y : BitVec v) (z : BitVec w) :
    (x ++ y ++ z).extractLsb' w v = y := by
  rw [extract_append_high _ _ (Nat.le_refl w), Nat.sub_self, extract_append_whole_low]

theorem slotOf_eq_of_extract {w : Word} {slot : Slot} (h : w.extractLsb' 16 3 = indexBits slot) : slotOf w = slot :=
  congrArg BitVec.toFin h

@[simp] theorem slotOf_encodeS (fam fn : BitVec 4) (slot : Slot) : slotOf (encodeS fam fn slot) = slot :=
  slotOf_eq_of_extract (extract_append_middle _ (indexBits slot) _)

@[simp] theorem slotOf_encodeSV (fam fn : BitVec 4) (slot : Slot) (v : BitVec 4) :
    slotOf (encodeSV fam fn slot v) = slot := by
  refine slotOf_eq_of_extract ?_
  simp (disch := decide) only [encodeSV, extract_append_high]
  exact extract_append_whole_low _ _

@[simp] theorem slotOf_encodeSK (fam fn : BitVec 4) (slot : Slot) (src : BufSrc) (k : BitVec 4) :
    slotOf (encodeSK fam fn slot src k) = slot := by
  refine slotOf_eq_of_extract ?_
  simp (disch := decide) only [encodeSK, extract_append_high]
  exact extract_append_whole_low _ _

@[simp] theorem slotOf_encodeSIB (fam fn : BitVec 4) (slot : Slot) (idx : ByteIndex) (byte : BitVec 8) :
    slotOf (encodeSIB fam fn slot idx byte) = slot := by
  refine slotOf_eq_of_extract ?_
  simp (disch := decide) only [encodeSIB, extract_append_high]
  exact extract_append_whole_low _ _

@[simp] theorem slotOf_encodeSI (fam fn : BitVec 4) (slot : Slot) (src : BufSrc) (idx : ByteIndex) :
    slotOf (encodeSI fam fn slot src idx) = slot := by
  refine slotOf_eq_of_extract ?_
  simp (disch := decide) only [encodeSI, extract_append_high]
  exact extract_append_whole_low _ _

@[simp] theorem slotOf_encodeCW (fam fn : BitVec 4) (slot : Slot) (field : BitVec 4) (value : BitVec 12) :
    slotOf (encodeCW fam fn slot field value) = slot := by
  refine slotOf_eq_of_extract ?_
  simp (disch := decide) only [encodeCW, extract_append_high]
  exact extract_append_whole_low _ _

@[simp] theorem slotOf_encodeCR (fam fn : BitVec 4) (slot : Slot) (field : BitVec 4) :
    slotOf (encodeCR fam fn slot field) = slot := by
  refine slotOf_eq_of_extract ?_
  simp (disch := decide) only [encodeCR, extract_append_high]
  exact extract_append_whole_low _ _

@[simp] theorem fieldOf_encodeCW (fam fn : BitVec 4) (slot : Slot) (field : BitVec 4) (value : BitVec 12) :
    fieldOf (encodeCW fam fn slot field value) = field :=
  extract_append_middle _ field value

@[simp] theorem fieldOf_encodeCR (fam fn : BitVec 4) (slot : Slot) (field : BitVec 4) :
    fieldOf (encodeCR fam fn slot field) = field :=
  extract_append_middle _ field _

@[simp] theorem idxOf_encodeSIB (fam fn : BitVec 4) (slot : Slot) (idx : ByteIndex) (byte : BitVec 8) :
    idxOf (encodeSIB fam fn slot idx byte) = idx :=
  congrArg BitVec.toFin (extract_append_middle _ (indexBits idx) byte)

@[simp] theorem idxOf_encodeSI (fam fn : BitVec 4) (slot : Slot) (src : BufSrc) (idx : ByteIndex) :
    idxOf (encodeSI fam fn slot src idx) = idx :=
  congrArg BitVec.toFin (extract_append_middle _ (indexBits idx) _)

/-- The bit `src` names its buffer (R85). -/
theorem srcOf_eq_of_extract {w : Word} {src : BufSrc} (h : w.extractLsb' 12 1 = src.bit) : srcOf w = src := by
  rw [srcOf, h]
  cases src <;> rfl

@[simp] theorem srcOf_encodeSK (fam fn : BitVec 4) (slot : Slot) (src : BufSrc) (k : BitVec 4) :
    srcOf (encodeSK fam fn slot src k) = src := by
  refine srcOf_eq_of_extract ?_
  simp (disch := decide) only [encodeSK, extract_append_high]
  exact extract_append_whole_low _ _

@[simp] theorem srcOf_encodeSI (fam fn : BitVec 4) (slot : Slot) (src : BufSrc) (idx : ByteIndex) :
    srcOf (encodeSI fam fn slot src idx) = src := by
  refine srcOf_eq_of_extract ?_
  simp (disch := decide) only [encodeSI, extract_append_high]
  exact extract_append_whole_low _ _

/-! ## Decoding an encoded command -/

/-- The row with the fixed bits of a command's word decodes it, when the row's operand fields give the command back. -/
theorem decode_encode_of_row {i : Instr} {row : OpRow} (n : Nat) (hcode : Laws.OpcodeOf.Statement i)
    (hrow : opcodeMap[n]? = some row) (hname : row.mnemonic = i.mnemonic) (hmake : row.make (encode i) = i)
    (hwf : i.wellFormed = true) : decode (encode i) = .ok i := by
  obtain ⟨row', hrow', hname', hmatch⟩ := hcode
  have hrow : row ∈ opcodeMap := List.mem_of_getElem? hrow
  obtain rfl : row' = row :=
    List.inj_on_of_nodup_map opcodeMap_mnemonics_nodup hrow' hrow (hname'.trans hname.symm)
  obtain ⟨hfamfn, hclear⟩ := (masked_eq_match_iff hrow _).1 hmatch
  refine (decode_ok_iff_row _ i).2 ⟨row', hrow, hfamfn, hclear, ?_, hmake⟩
  rw [← wellFormed_make hrow, hmake, hwf]

/-- Settles O1: command by command, the row of its word and the operands the row's fields take out of it. -/
theorem encodedCommandDecodes : Obligations.EncodedCommandDecodes := by
  intro i hwf
  cases i with
  | nop => exact decode_encode_of_row 0 Laws.OpcodeOf.nop rfl rfl rfl hwf
  | tick => exact decode_encode_of_row 1 Laws.OpcodeOf.tick rfl rfl rfl hwf
  | lock => exact decode_encode_of_row 2 Laws.OpcodeOf.lock rfl rfl rfl hwf
  | setvar imm8 => exact decode_encode_of_row 3 (Laws.OpcodeOf.setvar _) rfl rfl (by simp [encode]) hwf
  | rdvar => exact decode_encode_of_row 4 Laws.OpcodeOf.rdvar rfl rfl rfl hwf
  | rdstat => exact decode_encode_of_row 5 Laws.OpcodeOf.rdstat rfl rfl rfl hwf
  | clrstat mask16 => exact decode_encode_of_row 6 (Laws.OpcodeOf.clrstat _) rfl rfl (by simp [encode]) hwf
  | rderr => exact decode_encode_of_row 7 Laws.OpcodeOf.rderr rfl rfl rfl hwf
  | rdcycl => exact decode_encode_of_row 8 Laws.OpcodeOf.rdcycl rfl rfl rfl hwf
  | rdcych => exact decode_encode_of_row 9 Laws.OpcodeOf.rdcych rfl rfl rfl hwf
  | setirq mask16 => exact decode_encode_of_row 10 (Laws.OpcodeOf.setirq _) rfl rfl (by simp [encode]) hwf
  | rddrop => exact decode_encode_of_row 11 Laws.OpcodeOf.rddrop rfl rfl rfl hwf
  | crcInit => exact decode_encode_of_row 12 Laws.OpcodeOf.crcInit rfl rfl rfl hwf
  | crcFeed imm8 => exact decode_encode_of_row 13 (Laws.OpcodeOf.crcFeed _) rfl rfl (by simp [encode]) hwf
  | crcRd => exact decode_encode_of_row 14 Laws.OpcodeOf.crcRd rfl rfl rfl hwf
  | crcBuf slot src k => exact decode_encode_of_row 15 (Laws.OpcodeOf.crcBuf _ _ _) rfl rfl (by simp [encode]) hwf
  | sumInit id => exact decode_encode_of_row 16 (Laws.OpcodeOf.sumInit _) rfl rfl (by simp [encode]) hwf
  | sumFeed imm8 => exact decode_encode_of_row 17 (Laws.OpcodeOf.sumFeed _) rfl rfl (by simp [encode]) hwf
  | sumRd => exact decode_encode_of_row 18 Laws.OpcodeOf.sumRd rfl rfl rfl hwf
  | sumBuf slot src k => exact decode_encode_of_row 19 (Laws.OpcodeOf.sumBuf _ _ _) rfl rfl (by simp [encode]) hwf
  | cntLd slot v => exact decode_encode_of_row 20 (Laws.OpcodeOf.cntLd _ _) rfl rfl (by simp [encode]) hwf
  | cntInc slot => exact decode_encode_of_row 21 (Laws.OpcodeOf.cntInc _) rfl rfl (by simp [encode]) hwf
  | cntRd slot => exact decode_encode_of_row 22 (Laws.OpcodeOf.cntRd _) rfl rfl (by simp [encode]) hwf
  | cntObs slot => exact decode_encode_of_row 23 (Laws.OpcodeOf.cntObs _) rfl rfl (by simp [encode]) hwf
  | cntPop slot => exact decode_encode_of_row 24 (Laws.OpcodeOf.cntPop _) rfl rfl (by simp [encode]) hwf
  | cntFlen slot => exact decode_encode_of_row 25 (Laws.OpcodeOf.cntFlen _) rfl rfl (by simp [encode]) hwf
  | cntSteer => exact decode_encode_of_row 26 Laws.OpcodeOf.cntSteer rfl rfl rfl hwf
  | cntRxc slot => exact decode_encode_of_row 27 (Laws.OpcodeOf.cntRxc _) rfl rfl (by simp [encode]) hwf
  | bufWr slot idx byte => exact decode_encode_of_row 28 (Laws.OpcodeOf.bufWr _ _ _) rfl rfl (by simp [encode]) hwf
  | bufRd slot src idx => exact decode_encode_of_row 29 (Laws.OpcodeOf.bufRd _ _ _) rfl rfl (by simp [encode]) hwf
  | bufSnap slot => exact decode_encode_of_row 30 (Laws.OpcodeOf.bufSnap _) rfl rfl (by simp [encode]) hwf
  | bufClr slot => exact decode_encode_of_row 31 (Laws.OpcodeOf.bufClr _) rfl rfl (by simp [encode]) hwf
  | frmTx slot => exact decode_encode_of_row 32 (Laws.OpcodeOf.frmTx _) rfl rfl (by simp [encode]) hwf
  | cfgWr slot field value => exact decode_encode_of_row 33 (Laws.OpcodeOf.cfgWr _ _ _) rfl rfl (by simp [encode]) hwf
  | cfgRd slot field => exact decode_encode_of_row 34 (Laws.OpcodeOf.cfgRd _ _) rfl rfl (by simp [encode]) hwf

/-! ## Encoding a decoded command -/

/-- A word made again of its own fields, with the bits its format reserves 0 (R84). -/
def Format.rebuild (w : Word) : Format → BitVec 4 → BitVec 4 → Word
  | .n, fam, fn => encodeN fam fn
  | .b, fam, fn => encodeB fam fn (imm8Of w)
  | .i, fam, fn => encodeI fam fn (idOf w)
  | .m, fam, fn => encodeM fam fn (mask16Of w)
  | .s, fam, fn => encodeS fam fn (slotOf w)
  | .sv, fam, fn => encodeSV fam fn (slotOf w) (vOf w)
  | .sk, fam, fn => encodeSK fam fn (slotOf w) (srcOf w) (kOf w)
  | .sib, fam, fn => encodeSIB fam fn (slotOf w) (idxOf w) (byteOf w)
  | .si, fam, fn => encodeSI fam fn (slotOf w) (srcOf w) (idxOf w)
  | .cw, fam, fn => encodeCW fam fn (slotOf w) (fieldOf w) (valueOf w)
  | .cr, fam, fn => encodeCR fam fn (slotOf w) (fieldOf w)

/-- The word of a row's command is made of the row's FAM and FN and the fields of its format. -/
theorem encode_make {row : OpRow} (hrow : row ∈ opcodeMap) (w : Word) :
    encode (row.make w) = row.format.rebuild w row.fam row.fn :=
  have hcolumn : opcodeMap.map (fun r => encode (r.make w)) =
      opcodeMap.map (fun r => r.format.rebuild w r.fam r.fn) := rfl
  List.map_inj_left.1 hcolumn row hrow

/-- Two adjacent ranges of bits make one range. -/
theorem extract_join (w : Word) (lo m n : Nat) :
    w.extractLsb' (lo + m) n ++ w.extractLsb' lo m = w.extractLsb' lo (n + m) :=
  BitVec.extractLsb'_append_extractLsb'_eq_extractLsb' rfl

theorem indexBits_slotOf (w : Word) : indexBits (slotOf w) = w.extractLsb' 16 3 := rfl

theorem indexBits_idxOf (w : Word) : indexBits (idxOf w) = w.extractLsb' 8 3 := rfl

theorem bit_srcOf (w : Word) : (srcOf w).bit = w.extractLsb' 12 1 := by
  rw [srcOf]
  generalize w.extractLsb' 12 1 = b
  revert b
  decide

/-- A word whose reserved bits are clear is made of its fields: side by side, they are all its 32 bits (R84, R86).
In each format, the fields are first written as ranges of the word's bits, and then joined from the top. -/
theorem rebuild_eq {f : Format} {w : Word} (hclear : f.reservedClear w = true) :
    f.rebuild w (famOf w) (fnOf w) = w := by
  have hzero (lo n : Nat) (h : (lo, n) ∈ f.zeroBits) : 0#n = w.extractLsb' lo n :=
    (beq_iff_eq.1 (List.all_eq_true.1 hclear (lo, n) h)).symm
  refine Eq.trans ?_ (extract_whole w)
  cases f with
  | n =>
    rw [Format.rebuild, encodeN, famOf, fnOf, hzero 0 24 (by decide)]
    rw [extract_join w 24 4 4, extract_join w 0 24 8]
  | b =>
    rw [Format.rebuild, encodeB, famOf, fnOf, hzero 8 16 (by decide), imm8Of]
    rw [extract_join w 24 4 4, extract_join w 8 16 8, extract_join w 0 8 24]
  | i =>
    rw [Format.rebuild, encodeI, famOf, fnOf, hzero 11 13 (by decide), idOf]
    rw [extract_join w 24 4 4, extract_join w 11 13 8, extract_join w 0 11 21]
  | m =>
    rw [Format.rebuild, encodeM, famOf, fnOf, hzero 16 8 (by decide), mask16Of]
    rw [extract_join w 24 4 4, extract_join w 16 8 8, extract_join w 0 16 16]
  | s =>
    rw [Format.rebuild, encodeS, famOf, fnOf, hzero 19 5 (by decide), indexBits_slotOf, hzero 0 16 (by decide)]
    rw [extract_join w 24 4 4, extract_join w 19 5 8, extract_join w 16 3 13, extract_join w 0 16 16]
  | sv =>
    rw [Format.rebuild, encodeSV, famOf, fnOf, hzero 19 5 (by decide), indexBits_slotOf, hzero 4 12 (by decide), vOf]
    rw [extract_join w 24 4 4, extract_join w 19 5 8, extract_join w 16 3 13, extract_join w 4 12 16,
      extract_join w 0 4 28]
  | sk =>
    rw [Format.rebuild, encodeSK, famOf, fnOf, hzero 19 5 (by decide), indexBits_slotOf, hzero 13 3 (by decide),
      bit_srcOf, hzero 4 8 (by decide), kOf]
    rw [extract_join w 24 4 4, extract_join w 19 5 8, extract_join w 16 3 13, extract_join w 13 3 16,
      extract_join w 12 1 19, extract_join w 4 8 20, extract_join w 0 4 28]
  | sib =>
    rw [Format.rebuild, encodeSIB, famOf, fnOf, indexBits_slotOf, indexBits_idxOf, byteOf]
    nth_rw 1 [hzero 19 5 (by decide)]
    rw [hzero 11 5 (by decide)]
    rw [extract_join w 24 4 4, extract_join w 19 5 8, extract_join w 16 3 13, extract_join w 11 5 16,
      extract_join w 8 3 21, extract_join w 0 8 24]
  | si =>
    rw [Format.rebuild, encodeSI, famOf, fnOf, hzero 19 5 (by decide), indexBits_slotOf, hzero 13 3 (by decide),
      bit_srcOf, hzero 11 1 (by decide), indexBits_idxOf, hzero 0 8 (by decide)]
    rw [extract_join w 24 4 4, extract_join w 19 5 8, extract_join w 16 3 13, extract_join w 13 3 16,
      extract_join w 12 1 19, extract_join w 11 1 20, extract_join w 8 3 21, extract_join w 0 8 24]
  | cw =>
    rw [Format.rebuild, encodeCW, famOf, fnOf, hzero 19 5 (by decide), indexBits_slotOf, fieldOf, valueOf]
    rw [extract_join w 24 4 4, extract_join w 19 5 8, extract_join w 16 3 13, extract_join w 12 4 16,
      extract_join w 0 12 20]
  | cr =>
    rw [Format.rebuild, encodeCR, famOf, fnOf, hzero 19 5 (by decide), indexBits_slotOf, fieldOf,
      hzero 0 12 (by decide)]
    rw [extract_join w 24 4 4, extract_join w 19 5 8, extract_join w 16 3 13, extract_join w 12 4 16,
      extract_join w 0 12 20]

/-- Settles O2: the decoded command is that of the word's row, whose word is made of the word's own fields. -/
theorem decodedWordIsItsEncoding : Obligations.DecodedWordIsItsEncoding := by
  intro w i hd
  obtain ⟨row, hrow, ⟨hfam, hfn⟩, hclear, -, rfl⟩ := (decode_ok_iff_row w i).1 hd
  rw [encode_make hrow, ← hfam, ← hfn, rebuild_eq hclear]

/-- Settles O5: each word is written out, so the decoder runs on it. -/
theorem writtenWordsDecode : Obligations.WrittenWordsDecode :=
  ⟨rfl, rfl, rfl, rfl, rfl, rfl, rfl, rfl, rfl, rfl, rfl, rfl, rfl⟩

end Sys2Proof
end

section
/-! PROOFS. What one step can write (10_state.md R22–R38, 43_frame_mux.md R211, R212): element by element the commands
that change it, what a reception leaves alone, and what follows for the steps of the block. Settles O7, O9, O16, O17,
O43, O49, O52, O55, O56 and O58. -/

namespace Sys2Proof

open Machine

/-! ## The writers of each state element -/

/-- What a successful FRM.TX leaves in PHASE, CTR and FIFO (R190, R192, R196, R197). -/
theorem afterTx_phase (slot : Slot) (s : State) :
    (afterTx slot s).phase = if s.tbl[slot].cls = .other then s.phase else s.tbl[slot].cls.bits := by
  rw [afterTx_eq]

theorem afterTx_ctr (slot : Slot) (s : State) :
    (afterTx slot s).ctr =
      if s.tbl[slot].cls = .other ∧ s.tbl[slot].ctrEn = true then s.ctr.set slot (s.ctr[slot] + 1) else s.ctr := by
  rw [afterTx_eq]

theorem afterTx_fifo (slot : Slot) (s : State) :
    (afterTx slot s).fifo = if s.tbl[slot].cls = .long then s.fifo.set slot [] else s.fifo := by
  rw [afterTx_eq]

section Writers

variable {i : Instr} {s t : State}

theorem effect_writes_crc (h : Effect i s t) (hne : t.crc ≠ s.crc) :
    i = .crcInit ∨ (∃ b, i = .crcFeed b) ∨ ∃ slot src k, i = .crcBuf slot src k := by
  cases h with
  | crcInit => exact .inl rfl
  | crcFeed s b => exact .inr (.inl ⟨b, rfl⟩)
  | crcBuf s slot src k => exact .inr (.inr ⟨slot, src, k, rfl⟩)
  | frmTx => exact absurd (by simp [afterTx_eq]) hne
  | _ => exact absurd rfl hne

theorem effect_writes_sum (h : Effect i s t) (hne : t.sum ≠ s.sum) :
    (∃ id, i = .sumInit id) ∨ (∃ b, i = .sumFeed b) ∨ ∃ slot src k, i = .sumBuf slot src k := by
  cases h with
  | sumInit s id => exact .inl ⟨id, rfl⟩
  | sumFeed s b => exact .inr (.inl ⟨b, rfl⟩)
  | sumBuf s slot src k => exact .inr (.inr ⟨slot, src, k, rfl⟩)
  | frmTx => exact absurd (by simp [afterTx_eq]) hne
  | _ => exact absurd rfl hne

theorem effect_writes_cyc (h : Effect i s t) (hne : t.cyc ≠ s.cyc) : i = .tick := by
  cases h with
  | tick => rfl
  | frmTx => exact absurd (by simp [afterTx_eq]) hne
  | _ => exact absurd rfl hne

theorem effect_writes_phase (h : Effect i s t) (hne : t.phase ≠ s.phase) :
    i = .tick ∨ ∃ slot, i = .frmTx slot ∧ s.tbl[slot].cls ≠ .other := by
  cases h with
  | tick => exact .inl rfl
  | frmTx s slot =>
    exact .inr ⟨slot, rfl, fun hother => hne ((afterTx_phase slot s).trans (if_pos hother))⟩
  | _ => exact absurd rfl hne

/-- The variant is written by SETVAR alone, and before LOCK (R273). -/
theorem effect_writes_variant (h : Effect i s t) (hne : t.fam ≠ s.fam ∨ t.sub ≠ s.sub) :
    (∃ v, i = .setvar v) ∧ s.locked = false := by
  cases h with
  | setvar s v hunlocked => exact ⟨⟨v, rfl⟩, hunlocked⟩
  | frmTx => exact absurd hne (by simp [afterTx_eq])
  | _ => exact absurd hne (not_or.2 ⟨not_not.2 rfl, not_not.2 rfl⟩)

/-- LOCKED is set by LOCK alone, and on a valid table (R272). -/
theorem effect_writes_locked (h : Effect i s t) (hne : t.locked ≠ s.locked) : i = .lock ∧ validTable s = true := by
  cases h with
  | lock s _ hvalid => exact ⟨rfl, hvalid⟩
  | frmTx => exact absurd (by simp [afterTx_eq]) hne
  | _ => exact absurd rfl hne

theorem effect_writes_status (h : Effect i s t) (hne : t.status ≠ s.status) :
    (∃ m, i = .clrstat m) ∨ ∃ e, t = fail e s := by
  cases h with
  | failed i s e => exact .inr ⟨e, rfl⟩
  | clrstat s m => exact .inl ⟨m, rfl⟩
  | frmTx => exact absurd (by simp [afterTx_eq]) hne
  | _ => exact absurd rfl hne

theorem effect_writes_err (h : Effect i s t) (hne : t.err ≠ s.err) :
    (∃ m, i = .clrstat m) ∨ ∃ e, t = fail e s := by
  cases h with
  | failed i s e => exact .inr ⟨e, rfl⟩
  | clrstat s m => exact .inl ⟨m, rfl⟩
  | frmTx => exact absurd (by simp [afterTx_eq]) hne
  | _ => exact absurd rfl hne

theorem effect_writes_irqEn (h : Effect i s t) (hne : t.irqEn ≠ s.irqEn) : ∃ m, i = .setirq m := by
  cases h with
  | setirq s m => exact ⟨m, rfl⟩
  | frmTx => exact absurd (by simp [afterTx_eq]) hne
  | _ => exact absurd rfl hne

/-- The table is written by CFG.WR alone, and before LOCK (R234). -/
theorem effect_writes_tbl (h : Effect i s t) (hne : t.tbl ≠ s.tbl) :
    (∃ slot f v, i = .cfgWr slot f v) ∧ s.locked = false := by
  cases h with
  | cfgWr s slot f v hunlocked => exact ⟨⟨slot, f, v, rfl⟩, hunlocked⟩
  | frmTx => exact absurd (by simp [afterTx_eq]) hne
  | _ => exact absurd rfl hne

theorem effect_writes_txbuf (h : Effect i s t) (hne : t.txbuf ≠ s.txbuf) :
    (∃ slot idx b, i = .bufWr slot idx b) ∨ (∃ slot, i = .bufSnap slot) ∨ ∃ slot, i = .bufClr slot := by
  cases h with
  | bufWr s slot idx b => exact .inl ⟨slot, idx, b, rfl⟩
  | bufSnap s slot => exact .inr (.inl ⟨slot, rfl⟩)
  | bufClr s slot => exact .inr (.inr ⟨slot, rfl⟩)
  | frmTx => exact absurd (by simp [afterTx_eq]) hne
  | _ => exact absurd rfl hne

theorem effect_writes_ctr (h : Effect i s t) (hne : t.ctr ≠ s.ctr) :
    (∃ slot v, i = .cntLd slot v) ∨ (∃ slot, i = .cntInc slot) ∨
      ∃ slot, i = .frmTx slot ∧ s.tbl[slot].cls = .other := by
  cases h with
  | cntLd s slot v => exact .inl ⟨slot, v, rfl⟩
  | cntInc s slot => exact .inr (.inl ⟨slot, rfl⟩)
  | frmTx s slot =>
    have hother : s.tbl[slot].cls = .other := by_contra fun hcls =>
      hne ((afterTx_ctr slot s).trans (if_neg fun h => hcls h.1))
    exact .inr (.inr ⟨slot, rfl, hother⟩)
  | _ => exact absurd rfl hne

theorem effect_writes_fifo (h : Effect i s t) (hne : t.fifo ≠ s.fifo) :
    (∃ slot, i = .cntPop slot) ∨ ∃ slot, i = .frmTx slot ∧ s.tbl[slot].cls = .long := by
  cases h with
  | cntPop s slot => exact .inl ⟨slot, rfl⟩
  | frmTx s slot =>
    have hlong : s.tbl[slot].cls = .long := by_contra fun hcls =>
      hne ((afterTx_fifo slot s).trans (if_neg hcls))
    exact .inr ⟨slot, rfl, hlong⟩
  | _ => exact absurd rfl hne

/-- No command writes what receptions write, but FIFO, nor the parameters, nor the later arrivals. -/
theorem effect_frame (h : Effect i s t) :
    t.rxbuf = s.rxbuf ∧ t.rxcnt = s.rxcnt ∧ t.last = s.last ∧ t.lastv = s.lastv ∧ t.rxDrop = s.rxDrop ∧
      t.params = s.params ∧ t.inputs = s.inputs := by
  cases h with
  | frmTx => simp [afterTx_eq]
  | _ => exact ⟨rfl, rfl, rfl, rfl, rfl, rfl, rfl⟩

/-- Only FRM.TX emits, and it appends its frames (R69, R183). -/
theorem effect_out (h : Effect i s t) :
    t.out = s.out ∨ ∃ slot, i = .frmTx slot ∧ txError s slot = none ∧ t.out = s.out ++ txFrames s slot ∧
      t.phase = if s.tbl[slot].cls = .other then s.phase else s.tbl[slot].cls.bits := by
  cases h with
  | frmTx s slot hok => exact .inr ⟨slot, rfl, hok, by simp [afterTx_eq], afterTx_phase slot s⟩
  | _ => exact .inl rfl

/-- Of the commands, only TICK lowers PHASE (R189, R190). -/
theorem phase_le_of_effect (h : Effect i s t) (hi : i ≠ .tick) : s.phase.toNat ≤ t.phase.toNat := by
  cases h with
  | tick => exact absurd rfl hi
  | frmTx s slot hok =>
    obtain ⟨-, horder, -⟩ := txError_none hok
    rw [respond_phase, emitFrames_phase, afterTx_phase]
    split
    case isTrue => exact Nat.le_refl _
    case isFalse hcls => exact horder.resolve_left hcls
  | _ => exact Nat.le_refl _

/-- Of the commands, only CLRSTAT clears a STATUS bit, and only one in its mask (R29, R276). -/
theorem effect_clears_status (h : Effect i s t) {n : Nat} (hset : s.status.getLsbD n = true)
    (hclear : t.status.getLsbD n = false) : ∃ m : BitVec 16, i = .clrstat m ∧ m.getLsbD n = true := by
  cases h with
  | failed i s e => simp [hset] at hclear
  | clrstat s m =>
    have hn : n < 16 := BitVec.lt_of_getLsbD hset
    exact ⟨m, rfl, by simpa [hset, hn] using hclear⟩
  | frmTx => simp [afterTx_eq, hset] at hclear
  | _ => exact absurd (hset.symm.trans hclear) nofun

end Writers

/-- A failing command's code is one of its own (R293); a command that does not fail answers E = 0 (R83). -/
theorem effect_fails_listed_or_succeeds {i : Instr} {s t : State} (h : Effect i s t) :
    (∃ e : ErrCode, e.code.toNat ∈ possibleErrors i ∧ t = fail e s) ∨ ∃ d, t.resp = some (okResponse d) := by
  cases h with
  | failed i s e hlisted => exact .inl ⟨e, hlisted, rfl⟩
  | _ => exact .inr ⟨_, rfl⟩

/-- Settles O9: a failing response names its code, and no success response is one. -/
theorem reportedErrorsAreListed : Obligations.ReportedErrorsAreListed := by
  intro i s n hlow hhigh hexec
  obtain ⟨e, hlisted, hfail⟩ | ⟨d, hresp⟩ := effect_fails_listed_or_succeeds (exec_effect hexec)
  · have hcode : BitVec.ofNat 4 n = e.code := congrArg State.err hfail
    have hn : n = e.code.toNat := by
      rw [← hcode, BitVec.toNat_ofNat]
      omega
    rwa [hn]
  · rw [okResponse_eq_ofNat] at hresp
    exact absurd hresp (failed_resp_ne (by omega) d.isLt s)

/-- Settles O56: element by element, the effects that change it. -/
theorem registersHaveOnlyTheirWriters : Obligations.RegistersHaveOnlyTheirWriters := by
  intro i s t hexec
  have h := exec_effect hexec
  have failed_of_fail (hfail : ∃ e, t = fail e s) : ∃ n : Nat, 1 ≤ n ∧ n ≤ 9 ∧ t = failed n s := by
    obtain ⟨e, rfl⟩ := hfail
    exact ⟨e.code.toNat, (errCode_mem_range e).1, (errCode_mem_range e).2, fail_eq_failed e s⟩
  exact ⟨effect_writes_crc h, effect_writes_sum h, effect_writes_cyc h, effect_writes_phase h,
    fun hne => (effect_writes_variant h hne).1, fun hne => (effect_writes_locked h hne).1,
    fun hne => (effect_writes_status h hne).imp_right failed_of_fail,
    fun hne => (effect_writes_err h hne).imp_right failed_of_fail,
    effect_writes_irqEn h, fun hne => (effect_writes_tbl h hne).1, effect_writes_txbuf h, effect_writes_ctr h,
    effect_writes_fifo h, effect_frame h⟩

/-- Settles O43: PHASE falls by TICK alone, and an emitting FRM.TX has passed the class-order check. -/
theorem classOrderWithinCycle : Obligations.ClassOrderWithinCycle := by
  intro i s t hexec
  have h := exec_effect hexec
  refine ⟨phase_le_of_effect h, fun hne => ?_⟩
  obtain hout | ⟨slot, rfl, hok, -, hphase⟩ := effect_out h
  · exact absurd hout hne
  obtain ⟨-, horder, -⟩ := txError_none hok
  refine ⟨slot, rfl, fun hcls => ?_, fun hcls => ⟨horder.resolve_left hcls, ?_⟩⟩
  · rw [hphase, if_pos hcls]
  · rw [hphase, if_neg hcls]

/-! ## What a reception leaves alone -/

/-- A reception writes its own state and no other (R211). -/
theorem demux_frame (f : RxFrame) (s : State) :
    demux f s = { s with
      status := (demux f s).status
      rxDrop := (demux f s).rxDrop
      rxcnt := (demux f s).rxcnt
      rxbuf := (demux f s).rxbuf
      last := (demux f s).last
      lastv := (demux f s).lastv
      fifo := (demux f s).fifo } := by
  obtain h | ⟨-, h⟩ | ⟨i, -, -, -, h⟩ := demux_cases f s <;> rw [h]
  · rfl
  · rfl
  · rw [captureCtr_storeFrame_eq]

/-- A reception only sets STATUS bits, and only the bits 10, 11 and 12 of its events (R296). -/
theorem demux_status (f : RxFrame) (s : State) :
    ∃ m : BitVec 16, (demux f s).status = s.status ||| m ∧ m &&& ~~~0x1C00#16 = 0#16 := by
  obtain h | ⟨-, h⟩ | ⟨i, -, -, -, h⟩ := demux_cases f s <;> rw [h]
  · exact ⟨statusBit RxEvent.rxDrop.code, rfl, by decide⟩
  · exact ⟨statusBit RxEvent.rxLen.code, rfl, by decide⟩
  · rw [captureCtr_storeFrame_eq]
    dsimp only
    split
    · exact ⟨0x0800#16, rfl, by decide⟩
    · exact ⟨0#16, BitVec.or_zero.symm, by decide⟩

/-- The step of an arrival on the RX port (R202). -/
theorem step_receive {s : State} {f : RxFrame} {rest : List Input} (hs : s.inputs = .receive f :: rest) :
    step s = .next (receiveFrame f { s with inputs := rest }) := by
  simp only [step, takeInput, hs, applyInput]

/-- Settles O49: the demultiplexer writes its own state, and STATUS by setting event bits. -/
theorem receptionWritesOnlyItsState : Obligations.ReceptionWritesOnlyItsState := by
  intro s t f rest hs hstep
  rw [step_receive hs] at hstep
  injection hstep with ht
  obtain ⟨m, hstatus, hmask⟩ := demux_status f { s with inputs := rest }
  have hstatus : t.status = s.status ||| m := by rw [← ht]; exact hstatus
  refine ⟨?_, ?_, ?_⟩
  · rw [← ht, receiveFrame, demux_frame]
  · rw [hstatus, BitVec.and_comm, BitVec.and_or_distrib_left, BitVec.and_comm _ m, hmask, BitVec.or_zero,
      BitVec.and_comm]
  · rw [hstatus]
    refine BitVec.eq_of_getLsbD_eq fun b _ => ?_
    rw [BitVec.getLsbD_and, BitVec.getLsbD_or]
    cases s.status.getLsbD b <;> rfl

/-! ## Steps -/

/-- No arrival, reset, or another arrival. -/
theorem step_arrival_cases {s t : State} (h : step s = .next t) :
    (s.inputs = [] ∧ t = s) ∨ (∃ rest, s.inputs = .reset :: rest ∧ t = applyReset { s with inputs := rest }) ∨
      ∃ x rest, s.inputs = x :: rest ∧ x ≠ .reset := by
  cases hs : s.inputs with
  | nil =>
    simp only [step, takeInput, hs] at h
    injection h with h
    exact .inl ⟨rfl, h.symm⟩
  | cons x rest =>
    cases x with
    | reset =>
      simp only [step, takeInput, hs, applyInput] at h
      injection h with h
      exact .inr (.inl ⟨rest, rfl, h.symm⟩)
    | command w => exact .inr (.inr ⟨_, _, rfl, nofun⟩)
    | receive f => exact .inr (.inr ⟨_, _, rfl, nofun⟩)

/-- The effect of a command comes from that command's word (R92, R96). -/
theorem step_word_cases {s t : State} {x : Input} {rest : List Input} (hs : s.inputs = x :: rest) (hx : x ≠ .reset)
    (h : step s = .next t) :
    (∃ i, x = .command (encode i) ∧ Effect i { s with inputs := rest } t) ∨
      t = fail .illegal { s with inputs := rest } ∨ ∃ f, t = receiveFrame f { s with inputs := rest } := by
  cases x with
  | command w =>
    obtain ⟨i, hi, heffect⟩ | ⟨-, hfail⟩ := step_command hs h
    · exact .inl ⟨i, by rw [decodedWordIsItsEncoding w i hi], heffect⟩
    · exact .inr (.inl hfail)
  | receive f =>
    rw [step_receive hs] at h
    injection h with h
    exact .inr (.inr ⟨f, h.symm⟩)
  | reset => exact absurd rfl hx

/-- Settles O7: each arrival's step answers, and so does the step with none. -/
theorem blockNeverHalts : Obligations.BlockNeverHalts := by
  intro s
  cases hs : s.inputs with
  | nil => exact ⟨s, by simp only [step, takeInput, hs]⟩
  | cons x rest =>
    cases x with
    | command w => exact step_command_answers hs
    | receive f => exact ⟨_, step_receive hs⟩
    | reset => exact ⟨_, by simp only [step, takeInput, hs, applyInput]; rfl⟩

/-- Settles O16: SETVAR and CFG.WR fail while locked, and nothing else writes the configuration. -/
theorem lockedConfigurationIsFrozen : Obligations.LockedConfigurationIsFrozen := by
  intro s t x rest hs hx hlocked h
  refine ⟨step_keeps_locked hlocked hs hx h, ?_⟩
  obtain ⟨i, heffect⟩ | rfl | ⟨f, rfl⟩ := step_cases_of_ne_reset hs hx h
  · have hnot : ¬ s.locked = false := by rw [hlocked]; nofun
    have hvariant : ¬ (t.fam ≠ s.fam ∨ t.sub ≠ s.sub) := fun hne => hnot (effect_writes_variant heffect hne).2
    obtain ⟨hfam, hsub⟩ := not_or.1 hvariant
    exact ⟨by_contra fun hne => hnot (effect_writes_tbl heffect hne).2, not_not.1 hfam, not_not.1 hsub⟩
  · exact ⟨rfl, rfl, rfl⟩
  · rw [receiveFrame, demux_frame]
    exact ⟨rfl, rfl, rfl⟩

/-- Settles O17: of all arrivals only the word of LOCK sets LOCKED, and on a valid table. -/
theorem onlyLockLocks : Obligations.OnlyLockLocks := by
  intro s t hunlocked h hlocked
  have hne : t.locked ≠ s.locked := by rw [hunlocked, hlocked]; nofun
  obtain ⟨-, rfl⟩ | ⟨rest, -, rfl⟩ | ⟨x, rest, hs, hx⟩ := step_arrival_cases h
  · exact absurd rfl hne
  · exact absurd hlocked nofun
  obtain ⟨i, rfl, heffect⟩ | rfl | ⟨f, rfl⟩ := step_word_cases hs hx h
  · obtain ⟨rfl, hvalid⟩ := effect_writes_locked heffect hne
    exact ⟨⟨rest, hs⟩, hvalid⟩
  · exact absurd rfl hne
  · exact absurd (demux_locked f _) hne

/-- Settles O52: no effect, no reception and no reset writes the parameters. -/
theorem parametersNeverChange : Obligations.ParametersNeverChange := by
  intro s t h
  obtain ⟨-, rfl⟩ | ⟨rest, -, rfl⟩ | ⟨x, rest, hs, hx⟩ := step_arrival_cases h
  · rfl
  · rfl
  obtain ⟨i, heffect⟩ | rfl | ⟨f, rfl⟩ := step_cases_of_ne_reset hs hx h
  · obtain ⟨-, -, -, -, -, hparams, -⟩ := effect_frame heffect
    exact hparams
  · rfl
  · rw [receiveFrame, demux_frame]

/-- Settles O55: only the effect of FRM.TX appends, and its word is the arrival taken. -/
theorem outputOnlyGrows : Obligations.OutputOnlyGrows := by
  intro s t x rest hs hx h
  have unchanged (hout : t.out = s.out) :
      ∃ fs, t.out = s.out ++ fs ∧ (fs ≠ [] → ∃ slot, x = .command (encode (.frmTx slot))) :=
    ⟨[], by rw [hout, List.append_nil], nofun⟩
  obtain ⟨i, rfl, heffect⟩ | rfl | ⟨f, rfl⟩ := step_word_cases hs hx h
  · obtain hout | ⟨slot, rfl, -, hout, -⟩ := effect_out heffect
    · exact unchanged hout
    · exact ⟨_, hout, fun _ => ⟨slot, rfl⟩⟩
  · exact unchanged rfl
  · refine unchanged ?_
    rw [receiveFrame, demux_frame]

/-- Settles O58: a failure and a reception only set bits, and of the effects only that of CLRSTAT clears one. -/
theorem statusBitsStick : Obligations.StatusBitsStick := by
  intro s t x rest n hs hx h hset hclear
  obtain ⟨i, rfl, heffect⟩ | rfl | ⟨f, rfl⟩ := step_word_cases hs hx h
  · obtain ⟨m, rfl, hm⟩ := effect_clears_status heffect hset hclear
    exact ⟨m, rfl, hm⟩
  · simp [hset] at hclear
  · obtain ⟨m, hstatus, -⟩ := demux_status f { s with inputs := rest }
    simp [receiveFrame, hstatus, hset] at hclear

end Sys2Proof
end

section
/-! PROOFS. The legal states of the block (10_state.md R27–R38, 43_frame_mux.md R183, 44_buffers_config.md R231, R235,
R246): reset is one, and every step keeps them, clause by clause. A clause that speaks of the table and of what was
received holds through CFG.WR because the table is written before LOCK, and nothing is received before LOCK.
Settles O50, O51, O53 and O54. -/

namespace Sys2Proof

open Machine

/-! ## Reset -/

theorem atReset_resetWith (p : Params) : AtReset (State.resetWith p) := by
  refine ⟨rfl, rfl, rfl, rfl, rfl, rfl, rfl, rfl, rfl, rfl, rfl, fun i => ?_, ?_, rfl, rfl⟩
  · simp [State.resetWith]
  · simp [State.irq, State.resetWith]

/-- Settles O50: the values of reset, and no field of an entry of zeros packs to anything else. -/
theorem resetValues : Obligations.ResetValues := by
  refine ⟨atReset_resetWith Params.default, rfl, rfl, rfl, fun f => BitVec.eq_of_toNat_eq ?_⟩
  rw [pack_toNat, packedField_zero]
  rfl

theorem step_reset {s : State} {rest : List Input} (hs : s.inputs = .reset :: rest) :
    step s = .next (applyReset { s with inputs := rest }) := by
  simp only [step, takeInput, hs, applyInput]

/-- Settles O51: the reset input leaves the reset state of the parameters it finds. -/
theorem resetInputRestores : Obligations.ResetInputRestores :=
  fun s _ hs => ⟨_, step_reset hs, atReset_resetWith s.params, rfl, rfl⟩

theorem inv_resetWith {p : Params} (hp : p.Legal) : (State.resetWith p).Inv where
  params := hp
  status := BitVec.zero_and
  err := Nat.zero_le 9
  variant := nofun
  table i := by simp [State.resetWith, TblEntry.zero, TblEntry.FieldsLegal]
  lock := nofun
  fifo i := by simp [State.resetWith]
  quiet _ := by simp [State.resetWith]
  rxTail i j _ := by simp [State.resetWith]
  observed i := by simp [State.resetWith]
  out := nofun

/-- Settles O54: the default depth is in its range. -/
theorem resetStateIsLegal : Obligations.ResetStateIsLegal := inv_resetWith (by decide)

/-! ## What no clause speaks of -/

/-- LOCK validates the table for the variant, and reads nothing else. -/
theorem validTable_congr {s t : State} (htbl : t.tbl = s.tbl) (hfam : t.fam = s.fam) :
    validTable t = validTable s := by
  rw [validTable, validTable, htbl, hfam]

/-- The response and the later arrivals are in no clause. -/
theorem inv_with_resp_inputs {s : State} (h : s.Inv) (r : Option Response) (rest : List Input) :
    { s with resp := r, inputs := rest }.Inv where
  params := h.params
  status := h.status
  err := h.err
  variant := h.variant
  table := h.table
  lock hlocked := (validTable_congr rfl rfl).trans (h.lock hlocked)
  fifo := h.fifo
  quiet := h.quiet
  rxTail := h.rxTail
  observed := h.observed
  out := h.out

/-! ## The clauses through a command -/

/-- Bits that are 0 in a STATUS and in what is set in it stay 0 (R29). -/
theorem statusLegal_or {a m : BitVec 16} (ha : a &&& 0xE001#16 = 0#16) (hm : m &&& 0xE001#16 = 0#16) :
    (a ||| m) &&& 0xE001#16 = 0#16 := by
  rw [BitVec.and_comm, BitVec.and_or_distrib_left, BitVec.and_comm _ a, BitVec.and_comm _ m, ha, hm]
  rfl

/-- A legal value leaves the fields with a range of their own in it (R235). -/
theorem fieldsLegal_writtenEntry {e : TblEntry} {f v : Nat} (he : e.FieldsLegal) (h : LegalNumber f v) :
    (writtenEntry e f v).FieldsLegal := by
  obtain ⟨hlen, hctr, hcmd⟩ := he
  match f, h with
  | 0, _ | 1, _ | 3, _ | 4, _ | 5, _ | 8, _ | 9, _ => exact ⟨hlen, hctr, hcmd⟩
  | 2, h =>
    refine ⟨?_, hctr, hcmd⟩
    rw [writtenEntry, BitVec.toNat_ofNat]
    omega
  | 6, h =>
    refine ⟨hlen, ?_, hcmd⟩
    rw [writtenEntry, BitVec.toNat_ofNat]
    omega
  | 7, h =>
    refine ⟨hlen, hctr, ?_⟩
    simp only [writtenEntry, BitVec.toNat_ofNat]
    omega
  | f + 10, h => omega

/-- The frames of a successful FRM.TX are frames of a checked entry (R183, R248). -/
theorem txFrames_legal {s : State} {slot : Slot} (hinv : s.Inv) (hok : txError s slot = none) :
    ∀ f ∈ txFrames s slot, f.Legal := by
  intro f hf
  obtain ⟨hready, -⟩ := txError_none hok
  obtain ⟨⟨hlow, hhigh⟩, -⟩ := structureOk_of_txReady hinv hready
  obtain ⟨v, sel, p, hf⟩ := mem_txFrames hf
  obtain ⟨hbus, -, hlen, hdata⟩ := mem_framed.1 hf
  obtain ⟨hbus, -⟩ := (mem_buses _ _).1 hbus
  rw [← hlen] at hlow hhigh
  refine ⟨hbus, hlow, hhigh, ?_⟩
  rw [hdata, build_length, ← hlen, Nat.min_eq_left hhigh]

section Commands

variable {i : Instr} {s t : State}

theorem effect_keeps_status (h : Effect i s t) (hstatus : s.StatusLegal) : t.StatusLegal := by
  cases h with
  | failed i s e => exact statusLegal_or hstatus (by cases e <;> decide)
  | clrstat s m =>
    change s.status &&& ~~~m &&& 0xE001#16 = 0#16
    rw [BitVec.and_assoc, BitVec.and_comm _ 0xE001#16, ← BitVec.and_assoc, hstatus, BitVec.zero_and]
  | frmTx => simpa [afterTx_eq, State.StatusLegal] using hstatus
  | _ => exact hstatus

theorem effect_keeps_err (h : Effect i s t) (herr : s.ErrLegal) : t.ErrLegal := by
  cases h with
  | failed i s e => exact (errCode_mem_range e).2
  | clrstat => exact Nat.zero_le 9
  | frmTx => simpa [afterTx_eq, State.ErrLegal] using herr
  | _ => exact herr

theorem effect_keeps_variant (h : Effect i s t) (hvariant : s.VariantLegal) : t.VariantLegal := by
  cases h with
  | setvar s v _ hv =>
    intro hsub
    have hv : v = 0#8 ∨ v = 1#8 ∨ v = 3#8 := by simpa [← BitVec.toNat_inj] using hv
    obtain rfl | rfl | rfl := hv
    · exact absurd (show (0#8).getLsbD 1 = true from hsub) (by decide)
    · exact absurd (show (1#8).getLsbD 1 = true from hsub) (by decide)
    · rfl
  | frmTx => simpa [afterTx_eq, State.VariantLegal] using hvariant
  | _ => exact hvariant

theorem effect_keeps_table (h : Effect i s t) (htable : s.TableLegal) : t.TableLegal := by
  cases h with
  | cfgWr s slot f v _ hv =>
    intro i
    simp only [respond_tbl, set_slot]
    split
    · rw [writeField_eq_writtenEntry]
      exact fieldsLegal_writtenEntry (htable slot) ((legalValue_iff f v).1 hv)
    · exact htable i
  | frmTx => simpa [afterTx_eq, State.TableLegal] using htable
  | _ => exact htable

theorem effect_keeps_lock (h : Effect i s t) (hlock : s.LockLegal) : t.LockLegal := by
  intro hlocked
  cases h with
  | lock s _ hvalid => exact (validTable_congr rfl rfl).trans hvalid
  | setvar s v hunlocked => exact absurd (hunlocked.symm.trans hlocked) nofun
  | cfgWr s slot f v hunlocked => exact absurd (hunlocked.symm.trans hlocked) nofun
  | frmTx s slot hok =>
    obtain ⟨⟨hlocked, -⟩, -⟩ := txError_none hok
    exact (validTable_congr (by simp [afterTx_eq]) (by simp [afterTx_eq])).trans (hlock hlocked)
  | _ => exact (validTable_congr rfl rfl).trans (hlock hlocked)

/-- Where a command changes the table, nothing was received yet (R28, R204). -/
theorem effect_tbl_eq_or_quiet (h : Effect i s t) (hquiet : s.UnlockedQuiet) :
    t.tbl = s.tbl ∨ ∀ i : Slot, s.fifo[i] = [] ∧ s.lastv[i] = false ∧ s.rxbuf[i] = Vector.replicate 8 0x00#8 := by
  refine or_iff_not_imp_left.2 fun hne i => ?_
  obtain ⟨hslots, -⟩ := hquiet (effect_writes_tbl h hne).2
  obtain ⟨hfifo, hlastv, -, hrxbuf⟩ := hslots i
  exact ⟨hfifo, hlastv, hrxbuf⟩

theorem effect_keeps_fifo (h : Effect i s t) (hquiet : s.UnlockedQuiet) (hfifo : s.FifoLegal) : t.FifoLegal := by
  cases h with
  | cntPop s slot v q hq =>
    intro i
    obtain ⟨hdepth, hlong⟩ := hfifo i
    simp only [respond_fifo, respond_params, respond_tbl, setFifo_fifo, setFifo_params, setFifo_tbl, set_slot]
    split
    case isTrue hi =>
      rw [hi] at hdepth hlong ⊢
      rw [hq] at hdepth hlong
      exact ⟨(Nat.le_succ _).trans hdepth, fun hcls => absurd (hlong hcls) nofun⟩
    case isFalse => exact ⟨hdepth, hlong⟩
  | frmTx s slot =>
    intro i
    simp only [respond_fifo, respond_params, respond_tbl, emitFrames_fifo, emitFrames_params, emitFrames_tbl, afterTx_eq]
    split
    case isTrue =>
      rw [set_slot]
      split
      case isTrue => exact ⟨Nat.zero_le _, fun _ => rfl⟩
      case isFalse => exact hfifo i
    case isFalse => exact hfifo i
  | cfgWr s slot f v hunlocked =>
    intro i
    obtain ⟨hslots, -⟩ := hquiet hunlocked
    obtain ⟨hempty, -⟩ := hslots i
    exact ⟨(hfifo i).1, fun _ => hempty⟩
  | _ => exact hfifo

theorem effect_keeps_quiet (h : Effect i s t) (hquiet : s.UnlockedQuiet) : t.UnlockedQuiet := by
  intro hunlocked
  cases h with
  | lock => exact absurd hunlocked nofun
  | tick =>
    obtain ⟨hslots, -, hout⟩ := hquiet hunlocked
    exact ⟨hslots, rfl, hout⟩
  | cntPop s slot v q hq =>
    obtain ⟨hslots, -⟩ := hquiet hunlocked
    obtain ⟨hempty, -⟩ := hslots slot
    exact absurd (hempty.symm.trans hq) nofun
  | frmTx s slot hok =>
    obtain ⟨⟨hlocked, -⟩, -⟩ := txError_none hok
    simp [afterTx_eq, hlocked] at hunlocked
  | _ => exact hquiet hunlocked

theorem effect_keeps_rxTail (h : Effect i s t) (hquiet : s.UnlockedQuiet) (htail : s.RxTailZero) :
    t.RxTailZero := by
  intro slot j hj
  obtain ⟨hrxbuf, -⟩ := effect_frame h
  rw [hrxbuf]
  obtain htbl | hnothing := effect_tbl_eq_or_quiet h hquiet
  · rw [htbl] at hj
    exact htail slot j hj
  · obtain ⟨-, -, hzero⟩ := hnothing slot
    rw [hzero]
    exact Vector.getElem_replicate j.isLt

theorem effect_keeps_observed (h : Effect i s t) (hquiet : s.UnlockedQuiet) (hobserved : s.ObservedLegal) :
    t.ObservedLegal := by
  intro slot
  obtain ⟨-, -, hlast, hlastv, -⟩ := effect_frame h
  obtain ⟨hcarries, hunseen⟩ := hobserved slot
  rw [hlast, hlastv]
  obtain htbl | hnothing := effect_tbl_eq_or_quiet h hquiet
  · rw [htbl]
    exact ⟨hcarries, hunseen⟩
  · obtain ⟨-, hfalse, -⟩ := hnothing slot
    exact ⟨fun htrue => absurd (hfalse.symm.trans htrue) nofun, hunseen⟩

theorem effect_keeps_out (h : Effect i s t) (hinv : s.Inv) : ∀ f ∈ t.out, f.Legal := by
  obtain hout | ⟨slot, -, hok, hout, -⟩ := effect_out h
  · rw [hout]
    exact hinv.out
  · rw [hout, List.forall_mem_append]
    exact ⟨hinv.out, txFrames_legal hinv hok⟩

/-- Every command keeps the legal states. -/
theorem effect_keeps_inv (h : Effect i s t) (hinv : s.Inv) : t.Inv where
  params := by
    obtain ⟨-, -, -, -, -, hparams, -⟩ := effect_frame h
    rw [hparams]
    exact hinv.params
  status := effect_keeps_status h hinv.status
  err := effect_keeps_err h hinv.err
  variant := effect_keeps_variant h hinv.variant
  table := effect_keeps_table h hinv.table
  lock := effect_keeps_lock h hinv.lock
  fifo := effect_keeps_fifo h hinv.quiet hinv.fifo
  quiet := effect_keeps_quiet h hinv.quiet
  rxTail := effect_keeps_rxTail h hinv.quiet hinv.rxTail
  observed := effect_keeps_observed h hinv.quiet hinv.observed
  out := effect_keeps_out h hinv

end Commands

/-! ## The clauses through a reception -/

/-- A reception that only counts or reports an event. -/
theorem inv_with_events {s : State} (h : s.Inv) {m : BitVec 16} (hm : m &&& 0xE001#16 = 0#16) (n : BitVec 8) :
    { s with status := s.status ||| m, rxDrop := n }.Inv where
  params := h.params
  status := statusLegal_or h.status hm
  err := h.err
  variant := h.variant
  table := h.table
  lock hlocked := (validTable_congr rfl rfl).trans (h.lock hlocked)
  fifo := h.fifo
  quiet := h.quiet
  rxTail := h.rxTail
  observed := h.observed
  out := h.out

section Stored

variable {s : State} {slot : Slot} {f : RxFrame}

/-- A full FIFO drops a value before it takes one, and only a LONG slot's FIFO takes one (R38, R208). -/
theorem stored_keeps_fifo (hdepth : 1 ≤ s.params.fifoDepth) (hfifo : s.FifoLegal) :
    (captureCtr slot f (storeFrame slot f s)).FifoLegal := by
  rw [captureCtr_storeFrame_eq]
  intro i
  obtain ⟨hle, hlong⟩ := hfifo i
  dsimp only
  split
  case isFalse => exact ⟨hle, hlong⟩
  case isTrue hcls =>
    obtain ⟨-, hcls⟩ := hcls
    rw [set_slot]
    split
    case isFalse => exact ⟨hle, hlong⟩
    case isTrue hi =>
      subst hi
      refine ⟨?_, fun hne => absurd hcls hne⟩
      rw [List.length_append, List.length_singleton]
      split
      case isTrue hfull =>
        rw [List.length_tail, hfull]
        omega
      case isFalse hroom => omega

/-- The stored bytes end at the slot's length (R207, R231). -/
theorem stored_keeps_rxTail (hlen : f.len = s.tbl[slot].len) (htail : s.RxTailZero) :
    (captureCtr slot f (storeFrame slot f s)).RxTailZero := by
  rw [captureCtr_storeFrame_eq]
  intro i j hj
  dsimp only at hj ⊢
  rw [set_slot]
  split
  case isFalse => exact htail i j hj
  case isTrue hi =>
    subst hi
    rw [overlay_byte, if_neg (by rw [hlen]; omega)]
    exact htail i j hj

/-- A counter is captured where the slot carries one (R208). -/
theorem stored_keeps_observed (hobserved : s.ObservedLegal) :
    (captureCtr slot f (storeFrame slot f s)).ObservedLegal := by
  rw [captureCtr_storeFrame_eq]
  intro i
  obtain ⟨hcarries, hunseen⟩ := hobserved i
  dsimp only
  split
  case isFalse => exact ⟨hcarries, hunseen⟩
  case isTrue hen =>
    rw [set_slot, set_slot]
    split
    case isFalse => exact ⟨hcarries, hunseen⟩
    case isTrue hi =>
      subst hi
      exact ⟨fun _ => hen, nofun⟩

theorem stored_keeps_inv (hinv : s.Inv) (hlocked : s.locked = true) (hlen : f.len = s.tbl[slot].len) :
    (captureCtr slot f (storeFrame slot f s)).Inv := by
  have hfifo := stored_keeps_fifo (slot := slot) (f := f) hinv.params.1 hinv.fifo
  have htail := stored_keeps_rxTail hlen hinv.rxTail
  have hobserved := stored_keeps_observed (slot := slot) (f := f) hinv.observed
  have hstatus : (captureCtr slot f (storeFrame slot f s)).StatusLegal := by
    rw [captureCtr_storeFrame_eq]
    change (if _ then _ else _) &&& _ = _
    split
    · exact statusLegal_or hinv.status (by decide)
    · exact hinv.status
  rw [captureCtr_storeFrame_eq] at hfifo htail hobserved hstatus ⊢
  exact {
    params := hinv.params
    status := hstatus
    err := hinv.err
    variant := hinv.variant
    table := hinv.table
    lock := fun _ => (validTable_congr rfl rfl).trans (hinv.lock hlocked)
    fifo := hfifo
    quiet := fun hunlocked => absurd (hunlocked.symm.trans hlocked) nofun
    rxTail := htail
    observed := hobserved
    out := hinv.out }

end Stored

/-- Every reception keeps the legal states. -/
theorem demux_keeps_inv {s : State} (hinv : s.Inv) (f : RxFrame) : (demux f s).Inv := by
  obtain h | ⟨-, h⟩ | ⟨slot, hlocked, -, hlen, h⟩ := demux_cases f s <;> rw [h]
  · exact inv_with_events hinv (by decide) _
  · exact inv_with_events hinv (by decide) s.rxDrop
  · exact stored_keeps_inv hinv hlocked hlen

/-- Settles O53: a step is the effect of a command, a failure, a reception or reset, and each keeps every clause. -/
theorem legalStateKeptByEveryStep : Obligations.LegalStateKeptByEveryStep := by
  intro s t hinv h
  have hinv' (rest : List Input) : { s with inputs := rest }.Inv := inv_with_resp_inputs hinv s.resp rest
  obtain ⟨-, rfl⟩ | ⟨rest, -, rfl⟩ | ⟨x, rest, hs, hx⟩ := step_arrival_cases h
  · exact hinv
  · exact inv_with_resp_inputs (inv_resetWith hinv.params) none rest
  obtain ⟨i, heffect⟩ | rfl | ⟨f, rfl⟩ := step_cases_of_ne_reset hs hx h
  · exact effect_keeps_inv heffect (hinv' rest)
  · exact effect_keeps_inv (.failed .nop _ .illegal (by decide)) (hinv' rest)
  · exact inv_with_resp_inputs (demux_keeps_inv (hinv' rest) f) none _

end Sys2Proof
end

section
/-! PROOFS. The RX port (43_frame_mux.md R202–R208): which of its rules ends a reception, and the whole effect of each.
Settles O45, O46 and O47. -/

namespace Sys2Proof

open Machine

/-! ## The rule that ends a reception -/

section Rules

variable {s : State} {f : RxFrame} {slot : Slot}

theorem demux_of_unmatched (h : s.locked = false ∨ ∀ i : Slot, ¬ SlotTakes s f i) : demux f s = dropFrame s := by
  rw [demux]
  split
  case isTrue => rfl
  case isFalse hlocked => rw [(rxSlot_none_iff s f).2 (h.resolve_left hlocked)]

/-- In a legal locked state the slot that matches is the one found (R203). -/
theorem rxSlot_of_takes (hinv : s.Inv) (hlocked : s.locked = true) (h : SlotTakes s f slot) :
    rxSlot s f = some slot := by
  cases hfound : rxSlot s f with
  | none => exact absurd h ((rxSlot_none_iff s f).1 hfound slot)
  | some i => rw [atMostOneSlotMatches s f i slot hinv hlocked (rxSlot_some hfound) h]

theorem demux_of_takes (hinv : s.Inv) (hlocked : s.locked = true) (h : SlotTakes s f slot) :
    demux f s = if f.len ≠ s.tbl[slot].len then raise .rxLen s else captureCtr slot f (storeFrame slot f s) := by
  rw [demux, if_neg (by rw [hlocked]; nofun), rxSlot_of_takes hinv hlocked h]

end Rules

/-! ## Effects -/

/-- A reception is what its rules leave, without a response (R202, R211). -/
theorem step_receive_of_demux {s u : State} {f : RxFrame} {rest : List Input} (hs : s.inputs = .receive f :: rest)
    (hu : demux f { s with inputs := rest } = u) : step s = .next { u with resp := none } := by
  rw [step_receive hs, receiveFrame, hu]

/-- What is left of a dropped frame: its event and its count (R204, R205). -/
theorem dropFrame_eq (s : State) : dropFrame s = { s with
    status := s.status ||| 0x1000#16, rxDrop := BitVec.ofNat 8 (min 255 (s.rxDrop.toNat + 1)) } := by
  rw [← dropCount_eq]
  rfl

/-- Settles O45: a frame no rule but R204 or R205 takes. -/
theorem unmatchedFrameIsDropped : Obligations.UnmatchedFrameIsDropped := by
  intro s f rest hs h
  have hdemux := (demux_of_unmatched (s := { s with inputs := rest }) h).trans (dropFrame_eq _)
  exact step_receive_of_demux hs hdemux

/-- Settles O46: the one slot that matches has another length. -/
theorem wrongLengthFrameIsDropped : Obligations.WrongLengthFrameIsDropped := by
  intro s f rest slot hinv hs hlocked htakes hlen
  have hinv' := inv_with_resp_inputs hinv s.resp rest
  have hdemux := (demux_of_takes hinv' hlocked htakes).trans (if_pos hlen)
  exact step_receive_of_demux hs hdemux

/-- The counter nibble of a frame as a number (R208). -/
theorem frameCtr_eq_ofNat (e : TblEntry) (f : RxFrame) :
    frameCtr e f = BitVec.ofNat 4 (f.data[e.ctrByte.toFin].toNat / 2 ^ e.ctrLsb.toNat) := by
  apply BitVec.eq_of_toNat_eq
  rw [frameCtr, BitVec.extractLsb'_toNat, BitVec.toNat_ofNat, Nat.shiftRight_eq_div_pow]

/-- A byte of the received payloads after a frame is stored (R207). -/
theorem stored_byte (s : State) (f : RxFrame) (slot i : Slot) (j : ByteIndex) :
    (s.rxbuf.set slot (overlay s.rxbuf[slot] f.data f.len))[i][j] =
      if i = slot ∧ j.val < f.len.toNat then f.data[j] else s.rxbuf[i][j] := by
  rw [set_slot]
  by_cases hi : i = slot
  · subst hi
    simp only [if_true, true_and, overlay_byte]
  · simp only [hi, if_false, false_and]

/-- Settles O47: the one slot that matches stores the frame and captures its counter. -/
theorem matchedFrameIsStored : Obligations.MatchedFrameIsStored := by
  intro s f rest slot hinv hs hlocked htakes hlen e v q full
  have hinv' := inv_with_resp_inputs hinv s.resp rest
  have hdemux := (demux_of_takes hinv' hlocked htakes).trans (if_neg (not_not.2 hlen))
  have hstep := step_receive_of_demux hs (hdemux.trans (captureCtr_storeFrame_eq slot f { s with inputs := rest }))
  refine ⟨_, hstep, ?_, fun i j => stored_byte s f slot i j⟩
  have hrxcnt : s.rxcnt[slot] + 1 = BitVec.ofNat 8 ((s.rxcnt[slot].toNat + 1) % 256) := succ_eq_ofNat_mod s.rxcnt[slot]
  have hv : frameCtr s.tbl[slot] f = v := frameCtr_eq_ofNat s.tbl[slot] f
  simp only [hrxcnt, hv, List.drop_one]
  rfl

end Sys2Proof
end

section
/-! PROOFS. What a step does not read (10_state.md R22, R23, R42; 20_memory.md R67): FRM.TX reads neither CRC nor SUM, no
read command reads a response, and nothing but RDVAR reads SUB. Settles O44, O57 and O60. -/

namespace Sys2Proof

open Machine

/-- The outcome with its next state changed. -/
def mapNext (g : State → State) : Result → Result
  | .next s => .next (g s)
  | .fault r => .fault r
  | .refused r => .refused r

@[simp] theorem mapNext_next (g : State → State) (s : State) : mapNext g (.next s) = .next (g s) := rfl

theorem mapNext_ite (g : State → State) (c : Prop) [Decidable c] (x y : Result) :
    mapNext g (if c then x else y) = if c then mapNext g x else mapNext g y :=
  apply_ite (mapNext g) c x y

/-! ## FRM.TX -/

/-- FRM.TX reads neither CRC nor SUM nor SUB and leaves them alone, so it commutes with a change of them (R22, R23,
R42). -/
theorem exec_frmTx_with (slot : Slot) (s : State) (c d : BitVec 8 → BitVec 8) (b : Bool → Bool) :
    exec (.frmTx slot) { s with crc := c s.crc, sum := d s.sum, sub := b s.sub } =
      mapNext (fun t => { t with crc := c t.crc, sum := d t.sum, sub := b t.sub }) (exec (.frmTx slot) s) := by
  cases herr : txError s slot with
  | some e =>
    have herr' : txError { s with crc := c s.crc, sum := d s.sum, sub := b s.sub } slot = some e := herr
    rw [exec_frmTx_of_error herr, exec_frmTx_of_error herr']
    rfl
  | none =>
    have herr' : txError { s with crc := c s.crc, sum := d s.sum, sub := b s.sub } slot = none := herr
    rw [exec_frmTx_of_ok herr, exec_frmTx_of_ok herr', afterTx_eq, afterTx_eq]
    rfl

/-- Settles O44: the effects of FRM.TX leave CRC and SUM alone, whatever they hold. -/
theorem frmTxIgnoresIncrementalRegisters : Obligations.FrmTxIgnoresIncrementalRegisters := by
  intro s t slot c d hexec
  have h := exec_effect hexec
  refine ⟨?_, ?_, ?_⟩
  · by_contra hne
    obtain hi | ⟨_, hi⟩ | ⟨_, _, _, hi⟩ := effect_writes_crc h hne <;> exact absurd hi nofun
  · by_contra hne
    obtain ⟨_, hi⟩ | ⟨_, hi⟩ | ⟨_, _, _, hi⟩ := effect_writes_sum h hne <;> exact absurd hi nofun
  · exact (exec_frmTx_with slot s (fun _ => c) (fun _ => d) id).trans (congrArg (mapNext _) hexec)

/-! ## Read commands -/

/-- A read command that is none but CNT.POP only answers (R67). -/
theorem exec_of_isPureRead {i : Instr} (hread : isPureRead i = true) (s : State) :
    ∃ d, exec i s = .next (respond d s) := by
  cases i with
  | rdvar | rdstat | rderr | rdcycl | rdcych | rddrop | crcRd | sumRd | cntRd | cntObs | cntFlen | cntSteer | cntRxc
  | bufRd => exact ⟨_, rfl⟩
  | cfgRd slot field => exact ⟨_, if_neg (not_not.2 hread)⟩
  | _ => exact absurd hread nofun

/-- What a read command answers does not depend on an older response. -/
theorem exec_with_resp_of_isPureRead {i : Instr} (hread : isPureRead i = true) (s : State) (r : Option Response) :
    exec i { s with resp := r } = exec i s := by
  cases i with
  | rdvar | rdstat | rderr | rdcycl | rdcych | rddrop | crcRd | sumRd | cntRd | cntObs | cntFlen | cntSteer | cntRxc
  | bufRd | cfgRd => rfl
  | _ => exact absurd hread nofun

/-- Settles O57: the response is the only change, and no read command reads it. -/
theorem readsAreIdempotent : Obligations.ReadsAreIdempotent := by
  intro i s hread
  obtain ⟨d, hd⟩ := exec_of_isPureRead hread s
  exact ⟨respond d s, hd, rfl, (exec_with_resp_of_isPureRead hread s _).trans hd⟩

/-! ## SUB -/

/-- No command but RDVAR and SETVAR reads or writes SUB (R42). -/
theorem exec_with_sub {i : Instr} (hrd : i ≠ .rdvar) (hset : ∀ v, i ≠ .setvar v) (s : State) (b : Bool) :
    exec i { s with sub := b } = mapNext (fun t => { t with sub := b }) (exec i s) := by
  cases i with
  | rdvar => exact absurd rfl hrd
  | setvar v => exact absurd rfl (hset v)
  | lock =>
    simp only [exec, execLock, mapNext_ite]
    rfl
  | crcBuf =>
    simp only [exec, execCrcBuf, mapNext_ite]
    rfl
  | sumBuf =>
    simp only [exec, execSumBuf, mapNext_ite]
    rfl
  | cntPop slot =>
    cases hq : s.fifo[slot] with
    | nil =>
      rw [exec_cntPop_of_nil hq, exec_cntPop_of_nil (s := { s with sub := b }) hq]
      rfl
    | cons v q =>
      rw [exec_cntPop_of_cons hq, exec_cntPop_of_cons (s := { s with sub := b }) hq]
      rfl
  | frmTx slot => exact exec_frmTx_with slot s id id fun _ => b
  | cfgWr =>
    simp only [exec, execCfgWr, mapNext_ite]
    rfl
  | cfgRd =>
    simp only [exec, execCfgRd, mapNext_ite]
    rfl
  | _ => rfl

/-- SETVAR writes SUB where it succeeds, and leaves it alone where it fails (R273). -/
theorem exec_setvar_with_sub {v : BitVec 8} {s t : State} (h : exec (.setvar v) s = .next t) (b : Bool) :
    ∃ b', exec (.setvar v) { s with sub := b } = .next { t with sub := b' } := by
  simp only [exec, execSetvar] at h ⊢
  split at h
  case isTrue hlocked =>
    injection h with h
    subst h
    exact ⟨b, if_pos hlocked⟩
  case isFalse hunlocked =>
    rw [if_neg hunlocked]
    split at h
    case isTrue hillegal =>
      injection h with h
      subst h
      exact ⟨b, if_pos hillegal⟩
    case isFalse hlegal =>
      injection h with h
      subst h
      exact ⟨_, if_neg hlegal⟩

/-- No command but RDVAR answers by SUB (R42). -/
theorem exec_ignores_sub {i : Instr} (hrd : i ≠ .rdvar) {s t : State} (h : exec i s = .next t) (b : Bool) :
    ∃ b', exec i { s with sub := b } = .next { t with sub := b' } := by
  by_cases hset : ∃ v, i = .setvar v
  · obtain ⟨v, rfl⟩ := hset
    exact exec_setvar_with_sub h b
  · refine ⟨b, ?_⟩
    rw [exec_with_sub hrd (not_exists.1 hset), h, mapNext_next]

/-- No reception reads or writes SUB (R42, R211). -/
theorem demux_with_sub (f : RxFrame) (s : State) (b : Bool) :
    demux f { s with sub := b } = { demux f s with sub := b } := by
  have hslot : rxSlot { s with sub := b } f = rxSlot s f := rfl
  by_cases hunlocked : s.locked = false
  · simp only [demux, if_pos hunlocked]
    rfl
  rw [demux, demux, if_neg hunlocked, if_neg hunlocked, hslot]
  cases rxSlot s f with
  | none => rfl
  | some slot =>
    simp only [captureCtr_storeFrame_eq]
    split
    · rfl
    · rfl

/-- No arrival but the word of RDVAR has a result that depends on SUB. -/
theorem applyInput_ignores_sub {x : Input} (hx : x ≠ .command (encode .rdvar)) {s t : State}
    (h : applyInput x s = .next t) (b : Bool) : ∃ b', applyInput x { s with sub := b } = .next { t with sub := b' } := by
  cases x with
  | reset =>
    injection h with h
    subst h
    exact ⟨false, rfl⟩
  | receive f =>
    injection h with h
    subst h
    refine ⟨b, ?_⟩
    rw [applyInput, receiveFrame, demux_with_sub]
    rfl
  | command w =>
    rw [applyInput, runCommand] at h ⊢
    cases hd : decode w with
    | error e =>
      rw [hd] at h
      injection h with h
      subst h
      exact ⟨b, rfl⟩
    | ok i =>
      rw [hd] at h
      refine exec_ignores_sub ?_ h b
      rintro rfl
      exact hx (by rw [decodedWordIsItsEncoding w _ hd])

/-- Settles O60: a step with no arrival keeps SUB, and every other one is that of its arrival. -/
theorem subFlagHasNoEffect : Obligations.SubFlagHasNoEffect := by
  intro s t b hword h
  cases hs : s.inputs with
  | nil =>
    simp only [step, takeInput, hs] at h ⊢
    injection h with h
    subst h
    exact ⟨b, by rw [hs]⟩
  | cons x rest =>
    have hx : x ≠ .command (encode .rdvar) := by
      rintro rfl
      rw [hs] at hword
      exact hword rfl
    simp only [step, takeInput, hs] at h ⊢
    exact applyInput_ignores_sub hx h b

end Sys2Proof
end

section
/-! PROOFS. The payload `build` makes (43_frame_mux.md R182, R184, R185): a bit of it is the counter's, the command
field's or the template's, in this order, and its authentication byte is that of the payload as built. Settles O34, O35
and O36. -/

namespace Sys2Proof

open Machine

/-- Settles O34: the eight masks. -/
theorem busListIsTheMask : Obligations.BusListIsTheMask :=
  fun mask => ⟨mem_buses mask, by revert mask; decide⟩

/-! ## A bit of a payload -/

/-- Bit `b` of byte `i` of a payload, where it has one. -/
abbrev bitOf (d : List Byte) (i b : Nat) : Option Bool := (d[i]?).map (·.getLsbD b)

section Bits

variable {d : List Byte} {i b : Nat} {old : Bool}

/-- `setfield` gives the bits of its field from `x` and keeps the others (R181). -/
theorem bitOf_setField (hb : b < 8) (hold : bitOf d i b = some old) (j lsb w : Nat) (x : Byte) :
    bitOf (setField d j lsb w x) i b = some (if i = j ∧ lsb ≤ b ∧ b < lsb + w then x.getLsbD (b - lsb) else old) := by
  obtain ⟨y, hy, rfl⟩ := Option.map_eq_some_iff.1 hold
  rw [bitOf, setField, List.getElem?_modify, hy]
  by_cases hij : i = j
  · subst hij
    simp [insertBits_getLsbD _ _ _ _ hb]
  · simp [hij, Ne.symm hij]

/-- An active frame holds `CMDV` in its command field, a neutral one 0, and any other has no command field (R184). -/
theorem bitOf_placeCmd (hb : b < 8) (hold : bitOf d i b = some old) (e : TblEntry) (sel : CmdSel) :
    bitOf (placeCmd e sel d) i b = some (
      if sel ≠ .none ∧ i = e.cmdByte.toNat ∧ e.cmdLsb.toNat ≤ b ∧ b < e.cmdLsb.toNat + (e.cmdWm1.toNat + 1) then
        (sel = .active && e.cmdv.getLsbD (b - e.cmdLsb.toNat))
      else old) := by
  cases sel with
  | none => simpa [placeCmd] using hold
  | active => simpa [placeCmd] using bitOf_setField hb hold _ _ _ e.cmdv
  | neutral => simpa [placeCmd] using bitOf_setField hb hold _ _ _ 0

/-- A slot with a counter holds it in its counter nibble (R184). -/
theorem bitOf_placeCtr (hb : b < 8) (hold : bitOf d i b = some old) (e : TblEntry) (v : Counter) :
    bitOf (placeCtr e v d) i b = some (
      if e.ctrEn = true ∧ i = e.ctrByte.toNat ∧ e.ctrLsb.toNat ≤ b ∧ b < e.ctrLsb.toNat + 4 then
        v.getLsbD (b - e.ctrLsb.toNat)
      else old) := by
  by_cases hen : e.ctrEn = true
  · have hlow : b - e.ctrLsb.toNat < 8 := by omega
    rw [placeCtr, if_pos hen, bitOf_setField hb hold]
    simp only [hen, true_and, BitVec.getLsbD_setWidth, hlow, decide_true, Bool.true_and]
  · simpa [placeCtr, hen] using hold

/-- The template is the first LEN bytes of TXBUF (R184). -/
theorem bitOf_template (x : Vector Byte 8) {j : ByteIndex} {len : Nat} (hj : j.val < len) (b : Nat) :
    bitOf (x.toList.take len) j.val b = some (x[j].getLsbD b) := by
  simp [bitOf, List.getElem?_take_of_lt hj]

end Bits

/-- The authentication byte is all `authenticate` writes (R185). -/
theorem getElem?_authenticate {e : TblEntry} {i : Nat} (hi : e.kind ≠ .none → i ≠ e.pos.toNat) (ps : Params)
    (d : List Byte) (v : Counter) (p : Fin 2) : (authenticate ps e d v p)[i]? = d[i]? := by
  rw [authenticate]
  cases hkind : e.kind with
  | none => rfl
  | sum | crc | table => exact List.getElem?_set_ne (hi (by rw [hkind]; nofun)).symm

/-- Settles O35: byte by byte below the authentication byte, the counter over the command field over the template. -/
theorem builtPayloadBits : Obligations.BuiltPayloadBits := by
  intro s slot v sel p j b e hlen hj hb hpos
  refine ⟨by rw [build_length, Nat.min_eq_left hlen], ?_⟩
  rw [build_eq_authenticate, getElem?_authenticate hpos]
  have htemplate := bitOf_template s.txbuf[slot] hj b
  exact bitOf_placeCtr hb (bitOf_placeCmd hb htemplate e sel) e v

/-! ## The authentication byte -/

/-- A table value covers no bytes, so it may stand anywhere in the payload (R185). -/
theorem build_tableByte {s : State} {slot : Slot} (hkind : s.tbl[slot].kind = .table)
    (hlen : s.tbl[slot].len.toNat ≤ 8) (hpos : s.tbl[slot].pos.toNat < s.tbl[slot].len.toNat) (v : Counter)
    (sel : CmdSel) (p : Fin 2) :
    (build s slot v sel p)[s.tbl[slot].pos.toNat]? = some s.params.authTable[p][v.toFin] := by
  rw [← placedPayload_length s slot v sel hlen] at hpos
  rw [build_eq_authenticate]
  simp only [authenticate, hkind]
  exact List.getElem?_set_self hpos

/-- Settles O36: a checksum and a CRC are those of bytes they do not overwrite, and a table value is its own. -/
theorem builtPayloadAuthentication : Obligations.BuiltPayloadAuthentication := by
  intro s slot v sel p e d hlen hpos
  refine ⟨fun hkind hk => ?_, fun hkind hk => ?_, fun hkind => build_tableByte hkind hlen hpos v sel p⟩
  · exact build_authByte s slot v sel p _ hlen hpos hk fun d => authenticate_sum hkind s.params d v p
  · exact build_authByte s slot v sel p _ hlen hpos hk fun d => authenticate_crc hkind s.params d v p

end Sys2Proof
end

section
/-! PROOFS. The CRC engine (40_crc.md R110–R117): a turn of the register is a multiplication by x less a multiple of the
generator polynomial, and CRC.INIT with a sequence of CRC.FEED words runs the pure function. Settles O22, O23 and
O25. -/

namespace Sys2Proof

open Machine

/-! ## The generator polynomial -/

/-- The product of the polynomials `q` and 0x11D over GF(2), as the sum of the shifts of 0x11D that `q` selects, added to
`acc`. -/
def addMultiple (acc : BitVec 16) (q : Byte) : BitVec 16 :=
  (List.range 8).foldl (fun acc i => if q.getLsbD i then acc ^^^ (0x11D#16 <<< i) else acc) acc

/-- The sum of shifts goes on from any start. -/
theorem addMultiple_eq_xor (acc : BitVec 16) (q : Byte) : addMultiple acc q = acc ^^^ addMultiple 0 q := by
  have hfold (l : List Nat) (a : BitVec 16) :
      l.foldl (fun acc i => if q.getLsbD i then acc ^^^ (0x11D#16 <<< i) else acc) a =
        a ^^^ l.foldl (fun acc i => if q.getLsbD i then acc ^^^ (0x11D#16 <<< i) else acc) 0 := by
    induction l generalizing a with
    | nil => simp
    | cons i l ih =>
      simp only [List.foldl_cons]
      rw [ih, ih (if q.getLsbD i then _ else _)]
      split
      · simp [BitVec.xor_assoc]
      · simp
  exact hfold _ acc

/-- A turn multiplies the register by x and subtracts the polynomial where x^8 appears (R112). -/
theorem crcShift_setWidth (r : Byte) :
    (crcShift r).setWidth 16 = r.setWidth 16 <<< 1 ^^^ if r.getLsbD 7 then 0x11D#16 else 0#16 := by
  revert r
  decide

/-- Multiplying a multiple by x and adding the polynomial or not is a multiple again, of a `q` one bit longer. -/
theorem addMultiple_shift (q : Byte) (c : Bool) (hq : q.getLsbD 7 = false) :
    addMultiple 0 (q <<< 1 ||| (BitVec.ofBool c).setWidth 8) =
      addMultiple 0 q <<< 1 ^^^ if c then 0x11D#16 else 0#16 := by
  revert q c
  decide

/-- After `k` turns the register is the start times x^k less a multiple of the polynomial, of degree below `k`. -/
theorem crcShift_repeat (x : Byte) {k : Nat} (hk : k ≤ 8) :
    ∃ q : Byte, (∀ i, k ≤ i → q.getLsbD i = false) ∧
      (Nat.repeat crcShift k x).setWidth 16 = x.setWidth 16 <<< k ^^^ addMultiple 0 q := by
  induction k with
  | zero =>
    have hnone : addMultiple 0 0 = 0#16 := by decide
    exact ⟨0, fun i _ => BitVec.getLsbD_zero, by rw [hnone, BitVec.shiftLeft_zero, BitVec.xor_zero]; rfl⟩
  | succ k ih =>
    obtain ⟨q, hq, hr⟩ := ih (by omega)
    generalize hreg : Nat.repeat crcShift k x = r at hr
    refine ⟨q <<< 1 ||| (BitVec.ofBool (r.getLsbD 7)).setWidth 8, fun i hi => ?_, ?_⟩
    · have hlow : ¬ i < 1 := by omega
      have hone : ¬ i = 0 := by omega
      simp [hq (i - 1) (by omega), hone]
    · rw [Nat.repeat, hreg, crcShift_setWidth, hr, addMultiple_shift q _ (hq 7 (by omega)),
        BitVec.shiftLeft_xor_distrib, ← BitVec.shiftLeft_add, BitVec.xor_assoc]

/-- Settles O22: eight turns, with the multiple moved to the other side. -/
theorem crcStepDividesByPolynomial : Obligations.CrcStepDividesByPolynomial := by
  intro r b
  obtain ⟨q, -, hstep⟩ := crcShift_repeat (r ^^^ b) (Nat.le_refl 8)
  refine ⟨q, ?_⟩
  rw [crc8Step, hstep]
  exact addMultiple_eq_xor _ q

/-- Settles O25: both check values, computed. -/
theorem crcCheckValues : Obligations.CrcCheckValues := by
  constructor
  · simp [crc8, crcFeed, crc8Step, Nat.repeat, crcShift]
  · simp [crc8, crcFeed, crc8Step, Nat.repeat, crcShift]

/-! ## A sequence of CRC.FEED -/

/-- The word of CRC.FEED (R93, R96). -/
theorem encode_crcFeed (b : Byte) : encode (.crcFeed b) = 0x11000000#32 + b.setWidth 32 := by
  revert b
  decide

/-- The step of a command's own word runs the command. -/
theorem step_encode {i : Instr} {s : State} {rest : List Input} (hwf : i.wellFormed = true)
    (hs : s.inputs = .command (encode i) :: rest) : step s = exec i { s with inputs := rest } := by
  simp only [step, takeInput, hs, applyInput, runCommand, encodedCommandDecodes i hwf]

/-- A run goes on from the state its first step answers. -/
theorem run_succ_of_step {s t : State} (h : step s = .next t) (k : Nat) :
    Host.Core.run core (k + 1) s = Host.Core.run core k t := by
  have hstep : core.step s = .next t := h
  simp only [Host.Core.run, hstep]

/-- The response to the last of a sequence of CRC.FEED words, and the old response where there is none. -/
def fedResponse (r : Byte) (d : List Byte) (old : Option Response) : Option Response :=
  if d = [] then old else some (okWord (crcFeed r d ^^^ 0xFF#8).toNat)

/-- The response of a CRC.FEED is the one an empty sequence after it leaves. -/
theorem fedResponse_cons (r b : Byte) (d : List Byte) (old : Option Response) :
    fedResponse r (b :: d) old = fedResponse (crc8Step r b) d (some (okWord (crc8Step r b ^^^ 0xFF#8).toNat)) := by
  cases d <;> rfl

/-- A sequence of CRC.FEED words feeds the register its bytes (R114). -/
theorem run_crcFeed (d : List Byte) : ∀ s : State,
    s.inputs = d.map (fun b => .command (0x11000000#32 + b.setWidth 32)) →
    Host.Core.run core d.length s = .next { s with
      crc := crcFeed s.crc d, resp := fedResponse s.crc d s.resp, inputs := [] } := by
  induction d with
  | nil =>
    intro s hs
    rw [List.map_nil] at hs
    rw [← hs]
    rfl
  | cons b d ih =>
    intro s hs
    rw [List.map_cons, ← encode_crcFeed] at hs
    have hstep := (step_encode rfl hs).trans (exec_crcFeed b _)
    rw [List.length_cons, run_succ_of_step hstep]
    refine (ih _ rfl).trans ?_
    rw [fedResponse_cons]
    rfl

/-- Settles O23: CRC.INIT starts the register at `CRC8_INIT`, and each CRC.FEED after it feeds one byte. -/
theorem incrementalCrcIsPureCrc : Obligations.IncrementalCrcIsPureCrc := by
  intro s d hs
  have hstep := (step_encode (i := .crcInit) rfl hs).trans (exec_crcInit _)
  rw [run_succ_of_step hstep, crc8_xor_ones]
  refine (run_crcFeed d _ rfl).trans ?_
  cases d <;> rfl

end Sys2Proof
end

section
/-! PROOFS. The remaining statements about single rules: a step and its command (20_memory.md R66), the fields of an
entry (44_buffers_config.md R234, R236), the steering counter (42_counter.md R151) and the interrupt level
(60_exceptions.md R297). Settles O6, O20, O31 and O59. -/

namespace Sys2Proof

open Machine

/-- Settles O6: the decoded command is run on the state with the later arrivals. -/
theorem stepRunsDecodedCommand : Obligations.StepRunsDecodedCommand := by
  refine ⟨fun w i s rest hs hd _ => ?_, fun w e s rest hs hd => step_of_decode_error hs hd, fun s hs => ?_⟩
  · simp only [step, takeInput, hs, applyInput, runCommand, hd]
  · simp only [step, takeInput, hs]

/-! ## The fields of an entry -/

/-- No two fields share a sub-field, so writing one leaves what the others pack to (R33). -/
theorem packedField_writtenEntry_ne {f g : Nat} (hne : g ≠ f) (e : TblEntry) (v : Nat) :
    packedField (writtenEntry e f v) g = packedField e g := by
  match f with
  | 0 | 1 | 2 | 3 | 4 | 5 | 6 | 7 | 8 | 9 =>
    unfold packedField
    split <;> first | exact absurd rfl hne | rfl
  | f + 10 => rfl

/-- Settles O20: in numbers, the written field packs to the value and any other field to what it was. -/
theorem cfgReadsBackWhatWasWritten : Obligations.CfgReadsBackWhatWasWritten := by
  intro e f v hv
  rw [legalValue_iff] at hv
  refine ⟨BitVec.eq_of_toNat_eq ?_, fun g hg => BitVec.eq_of_toNat_eq ?_⟩
  · rw [pack_toNat, writeField_eq_writtenEntry, packedField_writtenEntry e hv, BitVec.toNat_setWidth_of_le (by decide)]
  · have hne : g.toNat ≠ f.toNat := fun h => hg (BitVec.eq_of_toNat_eq h)
    rw [pack_toNat, pack_toNat, writeField_eq_writtenEntry, packedField_writtenEntry_ne hne]

/-! ## The steering counter -/

/-- Settles O31: half of CYC, and two cycles add 1 to it, across the wrap as well. -/
theorem steeringCounterAdvances : Obligations.SteeringCounterAdvances := by
  refine fun c => ⟨steerCtr_toNat c, fun heven => BitVec.eq_of_toNat_eq ?_⟩
  have htwo : (c + 2).toNat = (c.toNat + 2) % 2 ^ 32 := BitVec.toNat_add c 2
  have hone : (steerCtr c + 1).toNat = ((steerCtr c).toNat + 1) % 2 ^ 4 := BitVec.toNat_add (steerCtr c) 1
  rw [hone, steerCtr_toNat, steerCtr_toNat, htwo]
  omega

/-! ## The interrupt level -/

/-- A word is not 0 when one of its bits is 1. -/
theorem ne_zero_iff_getLsbD {w : Nat} (x : BitVec w) : x ≠ 0#w ↔ ∃ n, x.getLsbD n = true := by
  constructor
  · intro hne
    by_contra hno
    exact hne (BitVec.eq_of_getLsbD_eq fun n _ => by simpa using not_exists.1 hno n)
  · rintro ⟨n, hn⟩ rfl
    simp at hn

/-- A pending event of a legal state is one of 1..12 (R29). -/
theorem event_mem_range {s : State} (hstatus : s.StatusLegal) {n : Nat} (hn : s.status.getLsbD n = true) :
    1 ≤ n ∧ n ≤ 12 := by
  constructor
  · by_contra hzero
    obtain rfl : n = 0 := by omega
    exact absurd (hn.symm.trans (status_bit_of_hardwired hstatus (by decide))) nofun
  · by_contra hhigh
    have hpow : 2 ^ 13 ≤ 2 ^ n := Nat.pow_le_pow_right (by decide) (by omega)
    have hclear := Nat.testBit_lt_two_pow (Nat.lt_of_lt_of_le (status_lt_of_legal hstatus) hpow)
    exact absurd (hn.symm.trans hclear) nofun

/-- Settles O59: a common bit of STATUS and IRQ_EN, which STATUS holds at 1..12 only. -/
theorem interruptLevel : Obligations.InterruptLevel := by
  intro s hinv
  have hirq : s.irq = true ↔ s.status &&& s.irqEn ≠ 0#16 := bne_iff_ne
  rw [hirq, ne_zero_iff_getLsbD]
  simp only [BitVec.getLsbD_and, Bool.and_eq_true]
  constructor
  · rintro ⟨n, hpending, henabled⟩
    obtain ⟨hlow, hhigh⟩ := event_mem_range hinv.status hpending
    exact ⟨n, hlow, hhigh, hpending, henabled⟩
  · rintro ⟨n, -, -, hboth⟩
    exact ⟨n, hboth⟩

end Sys2Proof
end
